-- ==== Sys2Proof/Word.lean ====
section
/-! DEFINITION. The machine's words: bytes, 16-bit words, and the fields of an instruction word (00_scope R8, R10; 30_encoding R101). -/

namespace Sys2Proof

/-- A data value: a register V0 to VF, a memory byte, a timer (00_scope R8, REG_W and TIMER_W). -/
abbrev Byte := BitVec 8

/-- A 16-bit value: I, PC, a stack entry, an instruction word, the key mask (00_scope R8). -/
abbrev Word := BitVec 16

/-- A 4-bit field: a register index X or Y, the nibble N, a key number (30_encoding R101). -/
abbrev Nibble := BitVec 4

/-- The 12-bit address field NNN (30_encoding R101). -/
abbrev Addr12 := BitVec 12

end Sys2Proof
end

