-- ==== Sys2Proof/Syntax.lean ====
section
/-! DEFINITION. The 35 instructions, one constructor for each row of spec/opcode_table.json, each with the operand fields its row uses (30_encoding R101, R110, R115). -/

namespace Sys2Proof

inductive Instr where
  /-- 0NNN, the word neither 00E0 nor 00EE: SYS addr. -/
  | sys (nnn : Addr12)
  /-- 00E0: CLS. -/
  | cls
  /-- 00EE: RET. -/
  | ret
  /-- 1NNN: JP addr. -/
  | jp (nnn : Addr12)
  /-- 2NNN: CALL addr. -/
  | call (nnn : Addr12)
  /-- 3XNN: SE Vx, byte. -/
  | seVxByte (x : Nibble) (nn : Byte)
  /-- 4XNN: SNE Vx, byte. -/
  | sneVxByte (x : Nibble) (nn : Byte)
  /-- 5XY0: SE Vx, Vy. -/
  | seVxVy (x y : Nibble)
  /-- 6XNN: LD Vx, byte. -/
  | ldVxByte (x : Nibble) (nn : Byte)
  /-- 7XNN: ADD Vx, byte. -/
  | addVxByte (x : Nibble) (nn : Byte)
  /-- 8XY0: LD Vx, Vy. -/
  | ldVxVy (x y : Nibble)
  /-- 8XY1: OR Vx, Vy. -/
  | orVxVy (x y : Nibble)
  /-- 8XY2: AND Vx, Vy. -/
  | andVxVy (x y : Nibble)
  /-- 8XY3: XOR Vx, Vy. -/
  | xorVxVy (x y : Nibble)
  /-- 8XY4: ADD Vx, Vy. -/
  | addVxVy (x y : Nibble)
  /-- 8XY5: SUB Vx, Vy. -/
  | subVxVy (x y : Nibble)
  /-- 8XY6: SHR Vx (Vy is the source only under SHIFT_SRC = VY). -/
  | shrVxVy (x y : Nibble)
  /-- 8XY7: SUBN Vx, Vy. -/
  | subnVxVy (x y : Nibble)
  /-- 8XYE: SHL Vx (Vy is the source only under SHIFT_SRC = VY). -/
  | shlVxVy (x y : Nibble)
  /-- 9XY0: SNE Vx, Vy. -/
  | sneVxVy (x y : Nibble)
  /-- ANNN: LD I, addr. -/
  | ldIAddr (nnn : Addr12)
  /-- BNNN: JP V0, addr. -/
  | jpV0Addr (nnn : Addr12)
  /-- CXNN: RND Vx, byte. -/
  | rndVxByte (x : Nibble) (nn : Byte)
  /-- DXYN: DRW Vx, Vy, nibble. -/
  | drwVxVyN (x y n : Nibble)
  /-- EX9E: SKP Vx. -/
  | skpVx (x : Nibble)
  /-- EXA1: SKNP Vx. -/
  | sknpVx (x : Nibble)
  /-- FX07: LD Vx, DT. -/
  | ldVxDt (x : Nibble)
  /-- FX0A: LD Vx, K. -/
  | ldVxK (x : Nibble)
  /-- FX15: LD DT, Vx. -/
  | ldDtVx (x : Nibble)
  /-- FX18: LD ST, Vx. -/
  | ldStVx (x : Nibble)
  /-- FX1E: ADD I, Vx. -/
  | addIVx (x : Nibble)
  /-- FX29: LD F, Vx. -/
  | ldFVx (x : Nibble)
  /-- FX33: LD B, Vx. -/
  | ldBVx (x : Nibble)
  /-- FX55: LD [I], Vx. -/
  | ldMemVx (x : Nibble)
  /-- FX65: LD Vx, [I]. -/
  | ldVxMem (x : Nibble)
  deriving DecidableEq, Repr

end Sys2Proof
end

