-- ==== Sys2Proof/WellFormed.lean ====
section
/-! DEFINITION. Which terms of Instr are instructions of the machine: all of them, but a SYS whose word is that of CLS or RET (30_encoding R105). Every other field admits every value of its width. -/

namespace Sys2Proof

/-- SYS NNN stands for the words 0NNN other than 00E0 and 00EE (30_encoding R105, R110 row 1). -/
def Instr.wellFormed : Instr → Bool
  | .sys nnn => nnn != 0x0E0 && nnn != 0x0EE
  | .cls => true
  | .ret => true
  | .jp _ => true
  | .call _ => true
  | .seVxByte _ _ => true
  | .sneVxByte _ _ => true
  | .seVxVy _ _ => true
  | .ldVxByte _ _ => true
  | .addVxByte _ _ => true
  | .ldVxVy _ _ => true
  | .orVxVy _ _ => true
  | .andVxVy _ _ => true
  | .xorVxVy _ _ => true
  | .addVxVy _ _ => true
  | .subVxVy _ _ => true
  | .shrVxVy _ _ => true
  | .subnVxVy _ _ => true
  | .shlVxVy _ _ => true
  | .sneVxVy _ _ => true
  | .ldIAddr _ => true
  | .jpV0Addr _ => true
  | .rndVxByte _ _ => true
  | .drwVxVyN _ _ _ => true
  | .skpVx _ => true
  | .sknpVx _ => true
  | .ldVxDt _ => true
  | .ldVxK _ => true
  | .ldDtVx _ => true
  | .ldStVx _ => true
  | .addIVx _ => true
  | .ldFVx _ => true
  | .ldBVx _ => true
  | .ldMemVx _ => true
  | .ldVxMem _ => true

end Sys2Proof
end

