-- ==== Sys2Proof/Decode.lean ====
section
/-! DEFINITION. The decoder, a total function from instruction words to the 35 instructions or Unknown (30_encoding R103 to R115), the byte order of an instruction (20_memory R73), and the encoder, written from the same table (30_encoding R110). -/

namespace Sys2Proof

/-- The decoder's answer (30_encoding R111, R115): one of the 35 instructions, or the explicit variant Unknown(w). -/
inductive Decoded where
  | instr (i : Instr)
  | unknown (w : Word)
  deriving DecidableEq, Repr

/-- op = w[15:12] (30_encoding R101). -/
def opField (w : Word) : Nibble := w.extractLsb' 12 4

/-- X = w[11:8] (30_encoding R101). -/
def xField (w : Word) : Nibble := w.extractLsb' 8 4

/-- Y = w[7:4] (30_encoding R101). -/
def yField (w : Word) : Nibble := w.extractLsb' 4 4

/-- N = w[3:0] (30_encoding R101). -/
def nField (w : Word) : Nibble := w.extractLsb' 0 4

/-- NN = w[7:0] (30_encoding R101). -/
def nnField (w : Word) : Byte := w.extractLsb' 0 8

/-- NNN = w[11:0] (30_encoding R101). -/
def nnnField (w : Word) : Addr12 := w.extractLsb' 0 12

/-- Group 0, decoded on the whole word (30_encoding R105). -/
def decodeGroup0 (w : Word) : Decoded :=
  if w = 0x00E0 then .instr .cls
  else if w = 0x00EE then .instr .ret
  else .instr (.sys (nnnField w))

/-- Group 8, decoded on N (30_encoding R106). -/
def decodeGroup8 (w : Word) : Decoded :=
  match (nField w).toNat with
  | 0x0 => .instr (.ldVxVy (xField w) (yField w))
  | 0x1 => .instr (.orVxVy (xField w) (yField w))
  | 0x2 => .instr (.andVxVy (xField w) (yField w))
  | 0x3 => .instr (.xorVxVy (xField w) (yField w))
  | 0x4 => .instr (.addVxVy (xField w) (yField w))
  | 0x5 => .instr (.subVxVy (xField w) (yField w))
  | 0x6 => .instr (.shrVxVy (xField w) (yField w))
  | 0x7 => .instr (.subnVxVy (xField w) (yField w))
  | 0xE => .instr (.shlVxVy (xField w) (yField w))
  | _ => .unknown w

/-- Group E, decoded on NN (30_encoding R108). -/
def decodeGroupE (w : Word) : Decoded :=
  match (nnField w).toNat with
  | 0x9E => .instr (.skpVx (xField w))
  | 0xA1 => .instr (.sknpVx (xField w))
  | _ => .unknown w

/-- Group F, decoded on NN (30_encoding R109). -/
def decodeGroupF (w : Word) : Decoded :=
  match (nnField w).toNat with
  | 0x07 => .instr (.ldVxDt (xField w))
  | 0x0A => .instr (.ldVxK (xField w))
  | 0x15 => .instr (.ldDtVx (xField w))
  | 0x18 => .instr (.ldStVx (xField w))
  | 0x1E => .instr (.addIVx (xField w))
  | 0x29 => .instr (.ldFVx (xField w))
  | 0x33 => .instr (.ldBVx (xField w))
  | 0x55 => .instr (.ldMemVx (xField w))
  | 0x65 => .instr (.ldVxMem (xField w))
  | _ => .unknown w

/-- The decoder: the high nibble first, then the group's discriminator (30_encoding R103, R104, R107). -/
def decode (w : Word) : Decoded :=
  match (opField w).toNat with
  | 0x0 => decodeGroup0 w
  | 0x1 => .instr (.jp (nnnField w))
  | 0x2 => .instr (.call (nnnField w))
  | 0x3 => .instr (.seVxByte (xField w) (nnField w))
  | 0x4 => .instr (.sneVxByte (xField w) (nnField w))
  | 0x5 => if nField w = 0 then .instr (.seVxVy (xField w) (yField w)) else .unknown w
  | 0x6 => .instr (.ldVxByte (xField w) (nnField w))
  | 0x7 => .instr (.addVxByte (xField w) (nnField w))
  | 0x8 => decodeGroup8 w
  | 0x9 => if nField w = 0 then .instr (.sneVxVy (xField w) (yField w)) else .unknown w
  | 0xA => .instr (.ldIAddr (nnnField w))
  | 0xB => .instr (.jpV0Addr (nnnField w))
  | 0xC => .instr (.rndVxByte (xField w) (nnField w))
  | 0xD => .instr (.drwVxVyN (xField w) (yField w) (nField w))
  | 0xE => decodeGroupE w
  | _ => decodeGroupF w

/-- The instruction word of two fetched bytes, most significant byte first (20_memory R73). -/
def wordOfBytes (hi lo : Byte) : Word := hi ++ lo

/-- The high byte of an instruction word, which lies at the lower address (20_memory R73). -/
def highByte (w : Word) : Byte := w.extractLsb' 8 8

/-- The low byte of an instruction word, which lies at the higher address (20_memory R73). -/
def lowByte (w : Word) : Byte := w.extractLsb' 0 8

/-- Decoding on any bytes: the variant of the first two bytes and the bytes after them, or none where there are
fewer than two bytes (every instruction is exactly two bytes, 30_encoding R100). -/
def decodeBytes : List Byte → Option (Decoded × List Byte)
  | hi :: lo :: rest => some (decode (wordOfBytes hi lo), rest)
  | _ => none

/-- The bytes of an instruction word as memory holds them, the first at the lowest address (20_memory R73). -/
def bytesOfWord (w : Word) : List Byte := [highByte w, lowByte w]

/-- A register-pair word of group op with low nibble n: op X Y n (30_encoding R101). -/
def encodePair (op x y n : Nibble) : Word := op ++ x ++ y ++ n

/-- A word op X NN (30_encoding R101). -/
def encodeByteForm (op x : Nibble) (nn : Byte) : Word := op ++ x ++ nn

/-- A word op NNN (30_encoding R101). -/
def encodeAddrForm (op : Nibble) (nnn : Addr12) : Word := op ++ nnn

/-- The encoder: the word of each row of 30_encoding R110. -/
def encode : Instr → Word
  | .sys nnn => encodeAddrForm 0x0 nnn
  | .cls => 0x00E0
  | .ret => 0x00EE
  | .jp nnn => encodeAddrForm 0x1 nnn
  | .call nnn => encodeAddrForm 0x2 nnn
  | .seVxByte x nn => encodeByteForm 0x3 x nn
  | .sneVxByte x nn => encodeByteForm 0x4 x nn
  | .seVxVy x y => encodePair 0x5 x y 0x0
  | .ldVxByte x nn => encodeByteForm 0x6 x nn
  | .addVxByte x nn => encodeByteForm 0x7 x nn
  | .ldVxVy x y => encodePair 0x8 x y 0x0
  | .orVxVy x y => encodePair 0x8 x y 0x1
  | .andVxVy x y => encodePair 0x8 x y 0x2
  | .xorVxVy x y => encodePair 0x8 x y 0x3
  | .addVxVy x y => encodePair 0x8 x y 0x4
  | .subVxVy x y => encodePair 0x8 x y 0x5
  | .shrVxVy x y => encodePair 0x8 x y 0x6
  | .subnVxVy x y => encodePair 0x8 x y 0x7
  | .shlVxVy x y => encodePair 0x8 x y 0xE
  | .sneVxVy x y => encodePair 0x9 x y 0x0
  | .ldIAddr nnn => encodeAddrForm 0xA nnn
  | .jpV0Addr nnn => encodeAddrForm 0xB nnn
  | .rndVxByte x nn => encodeByteForm 0xC x nn
  | .drwVxVyN x y n => encodePair 0xD x y n
  | .skpVx x => encodeByteForm 0xE x 0x9E
  | .sknpVx x => encodeByteForm 0xE x 0xA1
  | .ldVxDt x => encodeByteForm 0xF x 0x07
  | .ldVxK x => encodeByteForm 0xF x 0x0A
  | .ldDtVx x => encodeByteForm 0xF x 0x15
  | .ldStVx x => encodeByteForm 0xF x 0x18
  | .addIVx x => encodeByteForm 0xF x 0x1E
  | .ldFVx x => encodeByteForm 0xF x 0x29
  | .ldBVx x => encodeByteForm 0xF x 0x33
  | .ldMemVx x => encodeByteForm 0xF x 0x55
  | .ldVxMem x => encodeByteForm 0xF x 0x65

/-- The word that an opcode-table number stands for: bit 0 is the least significant bit of the word, and every
bit above the nbits the table gives is 0. -/
def tableWord (nbits w : Nat) : Word := BitVec.ofNat 16 (w % 2 ^ nbits)

/-- The instruction the decoder reads from a table word laid out in memory order, none where it is Unknown. -/
def decodeTableWord (nbits w : Nat) : Option Instr :=
  match decodeBytes (bytesOfWord (tableWord nbits w)) with
  | some (.instr i, _) => some i
  | some (.unknown _, _) => none
  | none => none

end Sys2Proof
end

