-- ==== Sys2Proof/Config.lean ====
section
/-! DEFINITION. What an implementation fixes: the named parameters of 00_scope R9 as types of their values, the agents' moves and their order (TICK_SCHEDULE), and the two free values of the machine, the random byte and the free order of moves. The default values are in Machine/Params.lean. -/

namespace Sys2Proof

/-- FX29_INDEX (00_scope R9, D3): whether FX29 uses all eight bits of VX or its low nibble. -/
inductive Fx29Index where
  | full
  | lowNibble
  deriving DecidableEq, Repr

/-- SHIFT_SRC (00_scope R9, 43_alu R236): the register that 8XY6 and 8XYE shift. -/
inductive ShiftSrc where
  | vx
  | vy
  deriving DecidableEq, Repr

/-- SUB_VF_POLARITY (00_scope R9, 43_alu R235): whether VF = 1 says that 8XY5 or 8XY7 borrowed, or that it did not. -/
inductive SubVfPolarity where
  | borrow
  | notBorrow
  deriving DecidableEq, Repr

/-- SYS_POLICY (00_scope R9, 41_control_flow R180): what 0NNN does. -/
inductive SysPolicy where
  | fault
  | nop
  deriving DecidableEq, Repr

/-- KEY_INDEX_POLICY (00_scope R9, 42_skips R207): what SKP and SKNP do with a key number above 15. -/
inductive KeyIndexPolicy where
  | fault
  | lowNibble
  deriving DecidableEq, Repr

/-- The implementation parameters that a step reads (00_scope R9). FONT_BASE is any address with
FONT_BASE + 80 ≤ 0x200, so one of the 433 values 0 to 0x1B0. Log 1. -/
structure Params where
  fontBase : Fin 433
  fx29Index : Fx29Index
  shiftSrc : ShiftSrc
  subVfPolarity : SubVfPolarity
  sysPolicy : SysPolicy
  keyIndexPolicy : KeyIndexPolicy
  deriving DecidableEq, Repr

/-- RAND (00_scope R9, 43_alu R233, 60_exceptions R360): the random source's answer to its n-th request.
A FREE VALUE: nothing constrains it, so a claim holds for every answer. Log 3. -/
opaque Config.randByte : Nat → Byte

/-- One move of one of the three agents (00_scope R18): a sequencer cycle of the core, a tick of the timer
(46_timers_keys R318), or a step of the host (60_exceptions R355): a key write, a stop request, a load. -/
inductive Move where
  | core
  | tick
  | setKey (k : Nibble) (pressed : Bool)
  | stop
  | load (bytes : List Byte)
  deriving DecidableEq, Repr, Inhabited

/-- An endless order of moves (46_timers_keys R320, TICK_SCHEDULE of 00_scope R9; 60_exceptions R339). Log 2. -/
inductive Schedule where
  /-- These moves over and over; where there are none, the core moves each time. -/
  | cyclic (moves : List Move)
  /-- The n-th move of the free order and those after it. -/
  | free (n : Nat)
  deriving DecidableEq, Repr

/-- TICK_SCHEDULE and the host's steps, wholly open: the n-th move of an endless order. A FREE VALUE: nothing
constrains it, so a claim on a run under Schedule.free holds for every order of moves. Log 2. -/
opaque Config.freeMove : Nat → Move

end Sys2Proof
end

