-- ==== Sys2Proof/Machine/Params.lean ====
section
/-! DEFINITION. The default implementation parameters, the font set and the reset contents of memory (00_scope R9; 10_state R47, R55). They stand here, and not in Config or State, so that a repair can mend a value. -/

namespace Sys2Proof.Machine

/-- MEM_SIZE: 4096 bytes, addresses 0x000 to 0xFFF (00_scope R8, 20_memory R70). -/
def memSize : Nat := 4096

/-- PROG_BASE: where the program image is loaded and where PC starts (00_scope R8, 20_memory R71). -/
def progBase : Nat := 0x200

/-- MAX_PROG: the longest program image, 4096 - 0x200 = 3584 bytes (00_scope R8). -/
def maxProg : Nat := memSize - progBase

/-- The default parameters of 00_scope R9 (the spec's own choices D1, D3, D4, D5, D13, D15). Log 1. -/
def defaultParams : Params where
  fontBase := 0x000
  fx29Index := .full
  shiftSrc := .vx
  subVfPolarity := .borrow
  sysPolicy := .fault
  keyIndexPolicy := .fault

/-- FONT_DATA (10_state R47, D2): the standard hex font, five bytes for each digit 0 to F. Log 7. -/
def defaultFont : List Byte :=
  [0xF0, 0x90, 0x90, 0x90, 0xF0] ++ [0x20, 0x60, 0x20, 0x20, 0x70] ++
  [0xF0, 0x10, 0xF0, 0x80, 0xF0] ++ [0xF0, 0x10, 0xF0, 0x10, 0xF0] ++
  [0x90, 0x90, 0xF0, 0x10, 0x10] ++ [0xF0, 0x80, 0xF0, 0x10, 0xF0] ++
  [0xF0, 0x80, 0xF0, 0x90, 0xF0] ++ [0xF0, 0x10, 0x20, 0x40, 0x40] ++
  [0xF0, 0x90, 0xF0, 0x90, 0xF0] ++ [0xF0, 0x90, 0xF0, 0x10, 0xF0] ++
  [0xF0, 0x90, 0xF0, 0x90, 0x90] ++ [0xE0, 0x90, 0xE0, 0x90, 0xE0] ++
  [0xF0, 0x80, 0x80, 0x80, 0xF0] ++ [0xE0, 0x90, 0x90, 0x90, 0xE0] ++
  [0xF0, 0x80, 0xF0, 0x80, 0xF0] ++ [0xF0, 0x80, 0xF0, 0x80, 0x80]

/-- What an address that memory does not list reads as: its contents at reset with the default parameters,
the font bytes from FONT_BASE and 0x00 everywhere else (10_state R54, R55). Log 7. -/
def unlistedByte (a : Nat) : Byte :=
  if defaultParams.fontBase.val ≤ a then defaultFont.getD (a - defaultParams.fontBase.val) 0 else 0

end Sys2Proof.Machine
end

