-- ==== Sys2Proof/Machine/State.lean ====
section
/-! DEFINITION. The machine's state as plain data (10_state, 20_memory R70), why a step can stop, and the state after reset (10_state R54, R55). -/

namespace Sys2Proof.Machine

/-- The sequencer's states (10_state R48). -/
inductive RunState where
  | running
  | waitingForKey
  | halted
  deriving DecidableEq, Repr

/-- The kinds of fatal error, in the order of their codes 1 to 6 (60_exceptions R330). -/
inductive ErrorKind where
  | unknownOpcode
  | memoryOutOfBounds
  | stackOverflow
  | stackUnderflow
  | programTooLarge
  | keyIndexOutOfRange
  deriving DecidableEq, Repr

/-- The error record (10_state R49): the kind, the fetch address of the failing instruction, its word where it
was fetched, and the lowest out-of-range address of a MemoryOutOfBounds. An address is an unbounded
integer (00_scope R11). -/
structure ErrorRecord where
  kind : ErrorKind
  pc : Word
  opcode : Option Word
  addr : Option Nat
  deriving DecidableEq, Repr

/-- The result set of a step, a subset of five events (10_state R50). -/
structure ResultSet where
  displayUpdated : Bool := false
  toneOn : Bool := false
  toneOff : Bool := false
  halted : Bool := false
  keyWait : Bool := false
  deriving DecidableEq, Repr

/-- Memory: the addresses whose byte is not the reset byte, in rising order, with their bytes (Machine/Memory.lean). -/
abbrev Memory := List Host.Cell

/-- The display: row y (0 at the top) is entry y, and the pixel of column x (0 at the left) is bit x of its row
(10_state R44). Log 13. -/
abbrev Display := Vector (BitVec 64) 32

/-- The whole machine (10_state R30 to R53), with the agents' pending moves and the implementation parameters. -/
structure State where
  /-- V0 to VF (10_state R30). -/
  v : Vector Byte 16
  /-- The address register I (10_state R33). -/
  i : Word
  /-- The program counter (10_state R34). -/
  pc : Word
  /-- The stack's entries (10_state R38). -/
  stack : Vector Word 16
  /-- SP, the number of entries on the stack, 0 to 16 (10_state R38, R53). -/
  sp : Fin 17
  /-- The delay timer (10_state R42). -/
  dt : Byte
  /-- The sound timer (10_state R43). -/
  st : Byte
  /-- The display buffer (10_state R44). -/
  display : Display
  /-- The key state: bit k is set while key k is pressed (10_state R45). -/
  key : Word
  /-- Memory (10_state R46, 20_memory R70). -/
  mem : Memory
  /-- The sequencer's state (10_state R48). -/
  runState : RunState
  /-- The error record (10_state R49). -/
  err : Option ErrorRecord
  /-- The key-wait snapshot (10_state R51). -/
  kwSnap : Word
  /-- The result set of the latest step, an output (10_state R50). Log 4. -/
  events : ResultSet
  /-- The implementation parameters (00_scope R9), which no step changes. Log 1. -/
  params : Params
  /-- The agents' next moves, the first first (00_scope R18). Log 2. -/
  agenda : List Move
  /-- The moves that follow the agenda, without end: TICK_SCHEDULE and the host's steps (46_timers_keys R320). Log 2. -/
  schedule : Schedule
  /-- The bytes the random source has ready (60_exceptions R360). Log 3. -/
  randFeed : List Byte
  /-- How many random bytes were drawn (43_alu R233). Log 3. -/
  draws : Nat
  /-- Whether the one load is still to come (70_reset R372). Log 6. -/
  loadOpen : Bool
  deriving DecidableEq, Repr

/-- Why the machine can be stuck. -/
inductive Fault where
  /-- Raised by a core move in Halted: the core has no step there (40_cycle_driver R141; U19). Safe. Log 5. -/
  | coreHalted
  deriving DecidableEq, Repr

/-- Why the model can refuse a step. -/
inductive Refusal where
  /-- Raised by exec for an instruction that has no meaning yet. Safe. -/
  | notModelled (mnemonic : String)
  /-- Raised by a load move after the first cycle, after another load, or outside Running: the interface has one
  load, before the first cycle (70_reset R372; U16 says refuse). Safe. Log 6. -/
  | loadClosed
  deriving DecidableEq, Repr

/-- What a step or a meaning answers. -/
abbrev Result := Host.Outcome State Fault Refusal

/-- The machine right after initialisation, before any load (10_state R54, R55; log 9 for the rows the source
does not state, logs 1 to 4 and 6 for the model's own fields). -/
def State.reset : State where
  v := Vector.replicate 16 0
  i := 0
  pc := 0x200
  stack := Vector.replicate 16 0
  sp := 0
  dt := 0
  st := 0
  display := Vector.replicate 32 0
  key := 0
  mem := []
  runState := .running
  err := none
  kwSnap := 0
  events := {}
  params := defaultParams
  agenda := []
  schedule := .cyclic []
  randFeed := []
  draws := 0
  loadOpen := true

end Sys2Proof.Machine
end

