-- ==== Sys2Proof/Machine/Memory.lean ====
section
/-! DEFINITION. Memory as plain storage (20_memory R78): reading and writing bytes, and the canonical form of the list that holds it. The range check is Machine/Operands.lean's; these operations are total. -/

namespace Sys2Proof.Machine

/-- The byte at an address: its listed byte, or its reset byte where it is not listed. -/
def Memory.read (m : Memory) (a : Nat) : Byte :=
  match m with
  | [] => unlistedByte a
  | (b, v) :: rest => if b = a then v else Memory.read rest a

/-- The list without the entries of address a. -/
def Memory.erase (m : Memory) (a : Nat) : Memory :=
  match m with
  | [] => []
  | (b, v) :: rest => if b = a then Memory.erase rest a else (b, v) :: Memory.erase rest a

/-- The list with an entry put before the first higher address. -/
def Memory.insert (m : Memory) (a : Nat) (v : Byte) : Memory :=
  match m with
  | [] => [(a, v)]
  | (b, u) :: rest => if a < b then (a, v) :: (b, u) :: rest else (b, u) :: Memory.insert rest a v

/-- Store one byte, keeping the canonical form: a byte equal to the reset byte is not listed. -/
def Memory.write (m : Memory) (a : Nat) (v : Byte) : Memory :=
  if v = unlistedByte a then Memory.erase m a else Memory.insert (Memory.erase m a) a v

/-- Store bytes at ascending addresses from a. -/
def Memory.writeBytes (m : Memory) (a : Nat) : List Byte → Memory
  | [] => m
  | v :: vs => Memory.writeBytes (Memory.write m a v) (a + 1) vs

/-- The bytes at n ascending addresses from a. -/
def Memory.readBytes (m : Memory) (a : Nat) : Nat → List Byte
  | 0 => []
  | n + 1 => Memory.read m a :: Memory.readBytes m (a + 1) n

/-- Every address listed after a lower bound, strictly rising, below 4096, with a byte other than its reset byte. -/
def Memory.wfFrom (lo : Nat) : Memory → Bool
  | [] => true
  | (a, v) :: rest => decide (lo ≤ a) && decide (a < memSize) && v != unlistedByte a && Memory.wfFrom (a + 1) rest

/-- The canonical form of memory: equal memories are equal lists. -/
def Memory.wf (m : Memory) : Bool := Memory.wfFrom 0 m

end Sys2Proof.Machine
end

