-- ==== Sys2Proof/Machine/Display.lean ====
section
/-! DEFINITION. The display buffer: reading and flipping one pixel, the pixels a sprite covers, and the XOR blit with collision (10_state R44; 45_display R291 to R294). The instructions CLS and DRW are in Machine/Screen.lean. -/

namespace Sys2Proof.Machine

/-- Pix(x, y) (00_scope R13, 10_state R44): column x, row y. -/
def Display.pixel (d : Display) (x y : Nat) : Bool :=
  if h : y < 32 then d[y].getLsbD x else false

/-- Pix(x, y) <- Pix(x, y) ^ 1. -/
def Display.flip (d : Display) (p : Nat × Nat) : Display :=
  if h : p.2 < 32 then d.set p.2 (d[p.2] ^^^ BitVec.twoPow 64 p.1) else d

/-- Every pixel off. -/
def Display.clear : Display := Vector.replicate 32 0

/-- The pixels that row r of a sprite covers with a set bit: bit 7 - c of the row's byte is column c, and both
coordinates wrap (45_display R291, R293). -/
def spriteRowPixels (b : Byte) (x0 y0 r : Nat) : List (Nat × Nat) :=
  ((List.range 8).filter fun c => b.getLsbD (7 - c)).map fun c => ((x0 + c) % 64, (y0 + r) % 32)

/-- The pixels a sprite covers with a set bit, row by row from the start row and column by column (45_display R292). -/
def spritePixels (bytes : List Byte) (x0 y0 : Nat) : List (Nat × Nat) :=
  (List.range bytes.length).flatMap fun r => spriteRowPixels (bytes.getD r 0) x0 y0 r

/-- The XOR blit: flip each pixel in turn; the flag says whether one was on before its flip (45_display R292). -/
def Display.blit (d : Display) (col : Bool) : List (Nat × Nat) → Display × Bool
  | [] => (d, col)
  | p :: ps => Display.blit (Display.flip d p) (col || Display.pixel d p.1 p.2) ps

end Sys2Proof.Machine
end

