-- ==== Sys2Proof/Machine/Ops.lean ====
section
/-! DEFINITION. The named operations on the state: registers, PC, stack, memory transfers, random draws, the result set, and taking an error (00_scope R13; 10_state R40, R41; 60_exceptions R340). There is no return from an error (60_exceptions R342), so none stands beside it. -/

namespace Sys2Proof.Machine

/-- VF, the flag register (10_state R32). -/
def flagReg : Nibble := 0xF

/-- V[x] (10_state R30). -/
def State.reg (s : State) (x : Nibble) : Byte := s.v[x.toNat]

/-- V[x] <- b (10_state R30). -/
def State.setReg (s : State) (x : Nibble) (b : Byte) : State :=
  { s with v := s.v.set x.toNat b }

/-- An instruction's result and then its flag: V[x] first, VF second (43_alu R221, D6). -/
def State.setRegFlag (s : State) (x : Nibble) (b flag : Byte) : State :=
  (s.setReg x b).setReg flagReg flag

/-- I <- w (10_state R33). -/
def State.setI (s : State) (w : Word) : State := { s with i := w }

/-- pc <- w (10_state R34). -/
def State.setPc (s : State) (w : Word) : State := { s with pc := w }

/-- DT <- b (10_state R42). -/
def State.setDt (s : State) (b : Byte) : State := { s with dt := b }

/-- ST <- b (10_state R43). -/
def State.setSt (s : State) (b : Byte) : State := { s with st := b }

/-- The display buffer replaced (10_state R44). -/
def State.setDisplay (s : State) (d : Display) : State := { s with display := d }

/-- The step's result set (10_state R50). -/
def State.emit (s : State) (e : ResultSet) : State := { s with events := e }

/-- The address of the next instruction in sequence, (fa + 2) mod 2^16 (40_cycle_driver R143, 10_state R36). -/
def State.nextPc (s : State) : Word := s.pc + 2

/-- The state an instruction executes on (40_cycle_driver R143, R145): the state before the cycle with
pc = fa + 2, and an empty result set. -/
def State.advance (s : State) : State := (s.setPc s.nextPc).emit {}

/-- Bytes stored at ascending addresses (20_memory R77). -/
def State.storeBytes (s : State) (a : Nat) (bytes : List Byte) : State :=
  { s with mem := Memory.writeBytes s.mem a bytes }

/-- V0 to V[x] as a list (44_index_memory R265). -/
def State.regsUpTo (s : State) (x : Nibble) : List Byte := s.v.toList.take (x.toNat + 1)

/-- V[k] <- the byte at a + k, for k from 0 to x (44_index_memory R266). -/
def State.loadRegs (s : State) (x : Nibble) (a : Nat) : State :=
  { s with v := Vector.ofFn fun k : Fin 16 => if k.val ≤ x.toNat then Memory.read s.mem (a + k.val) else s.v[k.val] }

/-- Push(w) (10_state R40); none where SP = 16. -/
def State.push (s : State) (w : Word) : Option State :=
  if h : s.sp.val < 16 then
    some { s with stack := s.stack.set s.sp.val w, sp := ⟨s.sp.val + 1, by omega⟩ }
  else none

/-- Pop() (10_state R41): the state with SP one less, and the entry there; none where SP = 0. -/
def State.pop (s : State) : Option (State × Word) :=
  if h : 0 < s.sp.val then
    some ({ s with sp := ⟨s.sp.val - 1, by omega⟩ }, s.stack[s.sp.val - 1])
  else none

/-- Key(k) (10_state R45). -/
def State.keyPressed (s : State) (k : Nibble) : Bool := s.key.getLsbD k.toNat

/-- RandByte(), the byte a draw answers (43_alu R233, 60_exceptions R360): the next byte the random source has
ready, or the free value of this draw. Log 3. -/
def State.randByte (s : State) : Byte :=
  match s.randFeed with
  | b :: _ => b
  | [] => Config.randByte s.draws

/-- One draw taken. -/
def State.takeDraw (s : State) : State :=
  { s with randFeed := s.randFeed.tail, draws := s.draws + 1 }

/-- The codes of the error kinds (60_exceptions R330, D32). -/
def ErrorKind.code : ErrorKind → Nat
  | .unknownOpcode => 1
  | .memoryOutOfBounds => 2
  | .stackOverflow => 3
  | .stackUnderflow => 4
  | .programTooLarge => 5
  | .keyIndexOutOfRange => 6

/-- Entry into Halted (40_cycle_driver R150): run_state, err, and the event halted. -/
def State.enterHalted (s : State) (e : Option ErrorRecord) : State :=
  { s with runState := .halted, err := e, events := { halted := true } }

/-- TAKING AN ERROR: raise E(info) in the cycle of the instruction at s.pc (60_exceptions R340). s is the state
before the instruction, so none of its writes and no pc advance is in it. -/
def State.raise (s : State) (k : ErrorKind) (opcode : Option Word) (addr : Option Nat) : State :=
  s.enterHalted (some { kind := k, pc := s.pc, opcode := opcode, addr := addr })

/-- raise E(addr) by the decoded instruction i: the record's opcode is i's word (40_cycle_driver R146). Log 8. -/
def State.raiseBy (s : State) (i : Instr) (k : ErrorKind) (addr : Option Nat) : State :=
  s.raise k (some (encode i)) addr

/-- Entry into the key wait (40_cycle_driver R147): pc holds the FX0A's address, the key state is sampled. -/
def State.enterKeyWait (s : State) : State :=
  { s with runState := .waitingForKey, kwSnap := s.key, events := { keyWait := true } }

end Sys2Proof.Machine
end

