-- ==== Sys2Proof/Machine/Operands.lean ====
section
/-! DEFINITION. The operand forms: effective addresses and their range check (20_memory R75, R76; 44_index_memory R260, R268), the shift source (43_alu R236), the key index (42_skips R207), the font address (44_index_memory R263), and address immediates (30_encoding R102). -/

namespace Sys2Proof.Machine

/-- zext_16(NNN) (30_encoding R102). -/
def addrOperand (nnn : Addr12) : Word := nnn.setWidth 16

/-- The base address of an access through I, an unbounded integer (44_index_memory R260). -/
def State.effAddr (s : State) : Nat := s.i.toNat

/-- lowest_oob(b, n) where the range b .. b+n-1 holds an address above 0xFFF, none where it does not
(44_index_memory R268, 20_memory R76). An empty range holds none (45_display R295). -/
def lowestOob (b n : Nat) : Option Nat :=
  if n = 0 ∨ b + n ≤ memSize then none else some (max b memSize)

/-- The value that 8XY6 and 8XYE shift (43_alu R236). -/
def State.shiftOperand (s : State) (x y : Nibble) : Byte :=
  match s.params.shiftSrc with
  | .vx => s.reg x
  | .vy => s.reg y

/-- key_index(v) (42_skips R207); none where it raises KeyIndexOutOfRange. -/
def keyIndex (p : KeyIndexPolicy) (b : Byte) : Option Nibble :=
  if b.toNat ≤ 15 then some (b.setWidth 4)
  else
    match p with
    | .fault => none
    | .lowNibble => some (b.setWidth 4)

/-- The digit of FX29 (44_index_memory R263). -/
def fontDigit (p : Fx29Index) (b : Byte) : Nat :=
  match p with
  | .full => b.toNat
  | .lowNibble => b.toNat % 16

/-- FONT_BASE + 5 * d (44_index_memory R263). -/
def fontAddr (p : Params) (b : Byte) : Word :=
  BitVec.ofNat 16 (p.fontBase.val + 5 * fontDigit p.fx29Index b)

/-- The hundreds, tens and ones digits of a byte (44_index_memory R264). -/
def bcdDigits (b : Byte) : List Byte :=
  [BitVec.ofNat 8 (b.toNat / 100), BitVec.ofNat 8 (b.toNat / 10 % 10), BitVec.ofNat 8 (b.toNat % 10)]

/-- The keys newly pressed since the last sample, as a mask (46_timers_keys R315). -/
def State.newlyPressed (s : State) : Word := s.key &&& ~~~s.kwSnap

/-- The lowest key of a mask, none where it is empty (46_timers_keys R315). -/
def lowestKey (mask : Word) : Option Nat := (List.range 16).find? fun k => mask.getLsbD k

end Sys2Proof.Machine
end

