-- ==== Sys2Proof/Machine/Flags.lean ====
section
/-! DEFINITION. The flag computations: every value an instruction writes to VF as a flag (10_state R52; 43_alu R228 to R235). The collision flag is Display.blit's. -/

namespace Sys2Proof.Machine

/-- A flag as the byte VF holds: 1 or 0 (10_state R52). -/
def flagByte (c : Bool) : Byte := if c then 1 else 0

/-- The carry of a + b: 1 where the sum is above 255 (43_alu R228). -/
def carryFlag (a b : Byte) : Byte := flagByte (decide (255 < a.toNat + b.toNat))

/-- The flag of a - b (43_alu R229, R231, R235): under borrow 1 where b > a, under not_borrow 1 where a ≥ b. -/
def subFlag (p : SubVfPolarity) (a b : Byte) : Byte :=
  match p with
  | .borrow => flagByte (decide (a.toNat < b.toNat))
  | .notBorrow => flagByte (decide (b.toNat ≤ a.toNat))

/-- The bit that a shift right by one moves out (43_alu R230). -/
def shrFlag (a : Byte) : Byte := a &&& 1

/-- The bit that a shift left by one moves out (43_alu R232). -/
def shlFlag (a : Byte) : Byte := a >>> 7

end Sys2Proof.Machine
end

