-- ==== Sys2Proof/Machine/Agents.lean ====
section
/-! DEFINITION. The moves of the timer and the host, and what the host can read (46_timers_keys R318, R319; 60_exceptions R355 to R362; 70_reset R372, R373). -/

namespace Sys2Proof.Machine

/-- A timer counts down and stops at 0 (10_state R42, 46_timers_keys R318). -/
def countDown (b : Byte) : Byte := if b = 0 then 0 else b - 1

/-- The timer tick (46_timers_keys R318): both timers count down, tone-off where ST reaches 0 by it; no effect in
Halted (R319). -/
def State.tick (s : State) : State :=
  match s.runState with
  | .halted => s.emit {}
  | .running => { s with dt := countDown s.dt, st := countDown s.st, events := { toneOff := s.st == 1 } }
  | .waitingForKey => { s with dt := countDown s.dt, st := countDown s.st, events := { toneOff := s.st == 1 } }

/-- set key k pressed or released (60_exceptions R357): one bit of the key state, in every run_state. -/
def State.setKey (s : State) (k : Nibble) (pressed : Bool) : State :=
  { s with
    key := if pressed then s.key ||| BitVec.twoPow 16 k.toNat else s.key &&& ~~~(BitVec.twoPow 16 k.toNat)
    events := {} }

/-- A stop request (40_cycle_driver R149): Halted with err = none, from Running or WaitingForKey. In Halted, which
is final (R141), it changes nothing. Log 14. -/
def State.stop (s : State) : State :=
  match s.runState with
  | .halted => s.emit {}
  | .running => s.enterHalted none
  | .waitingForKey => s.enterHalted none

/-- The error record of a failed load (70_reset R373, 10_state R49). -/
def programTooLarge : ErrorRecord :=
  { kind := .programTooLarge, pc := BitVec.ofNat 16 progBase, opcode := none, addr := none }

/-- load(bytes) (70_reset R372, R373): the image at 0x200 and up, or ProgramTooLarge with no byte written. -/
def State.load (s : State) (bytes : List Byte) : State :=
  if bytes.length ≤ maxProg then
    { s with
      mem := Memory.writeBytes s.mem progBase bytes
      runState := .running
      loadOpen := false
      events := {} }
  else { s.enterHalted (some programTooLarge) with loadOpen := false }

/-- Whether a load is still to come (70_reset R372): none was made, no cycle ran, and the machine was not stopped. Log 6. -/
def State.mayLoad (s : State) : Bool := s.loadOpen && s.runState == .running

/-- A load move (U16 of 93_implementation_defined): refused once the load is closed. -/
def State.loadMove (s : State) (bytes : List Byte) : Result :=
  if s.mayLoad then .next (s.load bytes) else .refused .loadClosed

/-- The output tone_active (10_state R43, 60_exceptions R359). -/
def State.toneActive (s : State) : Bool := s.st != 0

/-- The display snapshot that the renderer reads (60_exceptions R358): Pix(x, y). -/
def State.pixelAt (s : State) (x : Fin 64) (y : Fin 32) : Bool := Display.pixel s.display x y

/-- The status outputs (60_exceptions R362). -/
def State.status (s : State) : RunState × Option ErrorRecord × ResultSet := (s.runState, s.err, s.events)

/-- Initialisation with any parameters and font bytes (10_state R47, R54, R55; 70_reset R370): the default font's
place is zeroed and the given font written at FONT_BASE. With the defaults it is State.reset. Log 7. -/
def State.initWith (p : Params) (font : List Byte) : State :=
  { State.reset with
    params := p
    mem := Memory.writeBytes
      (Memory.writeBytes [] defaultParams.fontBase.val (List.replicate defaultFont.length 0)) p.fontBase.val font }

end Sys2Proof.Machine
end

