-- ==== Sys2Proof/Machine/Cycle.lean ====
section
/-! DEFINITION. The parts of a core cycle around the instruction: the start of a cycle, the fetch and the Unknown variant (40_cycle_driver R142 to R145; 60_exceptions R331), and placing an instruction word for the next fetch. -/

namespace Sys2Proof.Machine

/-- The first thing a core cycle does: the load interface closes (70_reset R372, 60_exceptions R355). Log 6. -/
def State.beginCycle (s : State) : State := { s with loadOpen := false }

/-- The fetch (40_cycle_driver R142): two range-checked byte reads, high byte first, or the address of the
MemoryOutOfBounds it raises. -/
def State.fetch (s : State) : Except Nat Word :=
  match lowestOob s.pc.toNat 2 with
  | some a => .error a
  | none => .ok (wordOfBytes (Memory.read s.mem s.pc.toNat) (Memory.read s.mem (s.pc.toNat + 1)))

/-- A failed fetch (40_cycle_driver R142): MemoryOutOfBounds with no opcode. -/
def State.fetchError (s : State) (a : Nat) : State := s.raise .memoryOutOfBounds none (some a)

/-- Executing Unknown(w) (60_exceptions R331): UnknownOpcode. -/
def State.execUnknown (s : State) (w : Word) : State := s.raise .unknownOpcode (some w) none

/-- The address at which an instruction word can be placed for the next fetch: pc where both bytes are in memory,
else the entry point. Log 6. -/
def State.placePc (s : State) : Word := if s.pc.toNat + 2 ≤ memSize then s.pc else BitVec.ofNat 16 progBase

/-- The state whose next step is a Running core cycle that fetches the word w. Log 6. -/
def State.placeWord (s : State) (w : Word) : State :=
  { s with
    mem := Memory.writeBytes s.mem s.placePc.toNat (bytesOfWord w)
    pc := s.placePc
    runState := .running
    agenda := [.core] }

end Sys2Proof.Machine
end

