-- ==== Sys2Proof/Machine/Alu.lean ====
section
/-! DEFINITION. Register loads, ALU and random: 6XNN, 7XNN, 8XYn, CXNN (43_alu). Each meaning is given the state before the cycle, with pc = fa; no rule here changes pc further. -/

namespace Sys2Proof.Machine

/-- LD Vx, byte (43_alu R222). -/
def execLdVxByte (x : Nibble) (nn : Byte) (s : State) : Result :=
  .next (s.advance.setReg x nn)

/-- ADD Vx, byte (43_alu R223): no carry. -/
def execAddVxByte (x : Nibble) (nn : Byte) (s : State) : Result :=
  .next (s.advance.setReg x (s.reg x + nn))

/-- LD Vx, Vy (43_alu R224). -/
def execLdVxVy (x y : Nibble) (s : State) : Result :=
  .next (s.advance.setReg x (s.reg y))

/-- OR Vx, Vy (43_alu R225). -/
def execOrVxVy (x y : Nibble) (s : State) : Result :=
  .next (s.advance.setReg x (s.reg x ||| s.reg y))

/-- AND Vx, Vy (43_alu R226). -/
def execAndVxVy (x y : Nibble) (s : State) : Result :=
  .next (s.advance.setReg x (s.reg x &&& s.reg y))

/-- XOR Vx, Vy (43_alu R227). -/
def execXorVxVy (x y : Nibble) (s : State) : Result :=
  .next (s.advance.setReg x (s.reg x ^^^ s.reg y))

/-- ADD Vx, Vy (43_alu R228): VF is the carry. -/
def execAddVxVy (x y : Nibble) (s : State) : Result :=
  .next (s.advance.setRegFlag x (s.reg x + s.reg y) (carryFlag (s.reg x) (s.reg y)))

/-- SUB Vx, Vy (43_alu R229): VX minus VY. -/
def execSubVxVy (x y : Nibble) (s : State) : Result :=
  .next (s.advance.setRegFlag x (s.reg x - s.reg y) (subFlag s.params.subVfPolarity (s.reg x) (s.reg y)))

/-- SHR Vx (43_alu R230, R236). -/
def execShrVxVy (x y : Nibble) (s : State) : Result :=
  .next (s.advance.setRegFlag x (s.shiftOperand x y >>> 1) (shrFlag (s.shiftOperand x y)))

/-- SUBN Vx, Vy (43_alu R231): VY minus VX. -/
def execSubnVxVy (x y : Nibble) (s : State) : Result :=
  .next (s.advance.setRegFlag x (s.reg y - s.reg x) (subFlag s.params.subVfPolarity (s.reg y) (s.reg x)))

/-- SHL Vx (43_alu R232, R236). -/
def execShlVxVy (x y : Nibble) (s : State) : Result :=
  .next (s.advance.setRegFlag x (s.shiftOperand x y <<< 1) (shlFlag (s.shiftOperand x y)))

/-- RND Vx, byte (43_alu R233): one byte is drawn whatever NN is. -/
def execRndVxByte (x : Nibble) (nn : Byte) (s : State) : Result :=
  .next (s.advance.takeDraw.setReg x (s.randByte &&& nn))

end Sys2Proof.Machine
end

