-- ==== Sys2Proof/Machine/ControlFlow.lean ====
section
/-! DEFINITION. Control flow: SYS, RET, JP, CALL, JP V0 (41_control_flow). Each meaning is given the state before the cycle, with pc = fa. -/

namespace Sys2Proof.Machine

/-- SYS addr (41_control_flow R180): under SYS_POLICY = fault it raises UnknownOpcode, under nop it only advances. -/
def execSys (nnn : Addr12) (s : State) : Result :=
  match s.params.sysPolicy with
  | .fault => .next (s.raiseBy (.sys nnn) .unknownOpcode none)
  | .nop => .next s.advance

/-- RET (41_control_flow R181): pc <- Pop(), StackUnderflow where SP = 0. -/
def execRet (s : State) : Result :=
  match s.advance.pop with
  | none => .next (s.raiseBy .ret .stackUnderflow none)
  | some (s', target) => .next (s'.setPc target)

/-- JP addr (41_control_flow R182). -/
def execJp (nnn : Addr12) (s : State) : Result :=
  .next (s.advance.setPc (addrOperand nnn))

/-- CALL addr (41_control_flow R183): Push(fa + 2), then the jump; StackOverflow where SP = 16. -/
def execCall (nnn : Addr12) (s : State) : Result :=
  match s.advance.push s.nextPc with
  | none => .next (s.raiseBy (.call nnn) .stackOverflow none)
  | some s' => .next (s'.setPc (addrOperand nnn))

/-- JP V0, addr (41_control_flow R184): the sum is kept in 16 bits. -/
def execJpV0Addr (nnn : Addr12) (s : State) : Result :=
  .next (s.advance.setPc (addrOperand nnn + (s.reg 0).setWidth 16))

end Sys2Proof.Machine
end

