-- ==== Sys2Proof/Machine/IndexMemory.lean ====
section
/-! DEFINITION. Index register and memory transfers: ANNN, FX1E, FX29, FX33, FX55, FX65 (44_index_memory). Each meaning is given the state before the cycle, with pc = fa. I is never changed by an access (R267). -/

namespace Sys2Proof.Machine

/-- LD I, addr (44_index_memory R261). -/
def execLdIAddr (nnn : Addr12) (s : State) : Result :=
  .next (s.advance.setI (addrOperand nnn))

/-- ADD I, Vx (44_index_memory R262): mod 2^16, no range check, VF unchanged. -/
def execAddIVx (x : Nibble) (s : State) : Result :=
  .next (s.advance.setI (s.i + (s.reg x).setWidth 16))

/-- LD F, Vx (44_index_memory R263). -/
def execLdFVx (x : Nibble) (s : State) : Result :=
  .next (s.advance.setI (fontAddr s.params (s.reg x)))

/-- LD B, Vx (44_index_memory R264): hundreds, tens and ones at I, I+1 and I+2. -/
def execLdBVx (x : Nibble) (s : State) : Result :=
  match lowestOob s.effAddr 3 with
  | some a => .next (s.raiseBy (.ldBVx x) .memoryOutOfBounds (some a))
  | none => .next (s.advance.storeBytes s.effAddr (bcdDigits (s.reg x)))

/-- LD [I], Vx (44_index_memory R265): V0 to VX stored at I to I + X. -/
def execLdMemVx (x : Nibble) (s : State) : Result :=
  match lowestOob s.effAddr (x.toNat + 1) with
  | some a => .next (s.raiseBy (.ldMemVx x) .memoryOutOfBounds (some a))
  | none => .next (s.advance.storeBytes s.effAddr (s.regsUpTo x))

/-- LD Vx, [I] (44_index_memory R266): V0 to VX loaded from I to I + X. -/
def execLdVxMem (x : Nibble) (s : State) : Result :=
  match lowestOob s.effAddr (x.toNat + 1) with
  | some a => .next (s.raiseBy (.ldVxMem x) .memoryOutOfBounds (some a))
  | none => .next (s.advance.loadRegs x s.effAddr)

end Sys2Proof.Machine
end

