-- ==== Sys2Proof/Machine/Screen.lean ====
section
/-! DEFINITION. The display instructions CLS and DRW (45_display). Each meaning is given the state before the cycle, with pc = fa. -/

namespace Sys2Proof.Machine

/-- CLS (45_display R290). -/
def execCls (s : State) : Result :=
  .next ((s.advance.setDisplay Display.clear).emit { displayUpdated := true })

/-- The pixels that DRW flips (45_display R292): the set bits of the n bytes at I, from the start point
(V[x] mod 64, V[y] mod 32). -/
def State.drawPixels (s : State) (x y n : Nibble) : List (Nat × Nat) :=
  spritePixels (Memory.readBytes s.mem s.effAddr n.toNat) ((s.reg x).toNat % 64) ((s.reg y).toNat % 32)

/-- DRW Vx, Vy, nibble (45_display R292 to R295): the range check, the XOR blit, VF last. -/
def execDrwVxVyN (x y n : Nibble) (s : State) : Result :=
  match lowestOob s.effAddr n.toNat with
  | some a => .next (s.raiseBy (.drwVxVyN x y n) .memoryOutOfBounds (some a))
  | none =>
    let drawn := Display.blit s.display false (s.drawPixels x y n)
    .next (((s.advance.setDisplay drawn.1).setReg flagReg (flagByte drawn.2)).emit { displayUpdated := true })

end Sys2Proof.Machine
end

