-- ==== Sys2Proof/Machine/Skips.lean ====
section
/-! DEFINITION. Conditional skips: SE, SNE, SKP, SKNP (42_skips). Each meaning is given the state before the cycle, with pc = fa. -/

namespace Sys2Proof.Machine

/-- skip_if(c) after the advance (42_skips R200): pc is fa + 4 where c holds and fa + 2 where it does not. -/
def State.skipIf (s : State) (c : Bool) : State :=
  if c then s.advance.setPc (s.nextPc + 2) else s.advance

/-- A skip on the key that V[x] names (42_skips R205 to R207): c says what the key's state must be. -/
def State.skipIfKey (s : State) (i : Instr) (x : Nibble) (pressed : Bool) : State :=
  match keyIndex s.params.keyIndexPolicy (s.reg x) with
  | none => s.raiseBy i .keyIndexOutOfRange none
  | some k => s.skipIf (s.keyPressed k == pressed)

/-- SE Vx, byte (42_skips R201). -/
def execSeVxByte (x : Nibble) (nn : Byte) (s : State) : Result :=
  .next (s.skipIf (s.reg x == nn))

/-- SNE Vx, byte (42_skips R202). -/
def execSneVxByte (x : Nibble) (nn : Byte) (s : State) : Result :=
  .next (s.skipIf (s.reg x != nn))

/-- SE Vx, Vy (42_skips R203). -/
def execSeVxVy (x y : Nibble) (s : State) : Result :=
  .next (s.skipIf (s.reg x == s.reg y))

/-- SNE Vx, Vy (42_skips R204). -/
def execSneVxVy (x y : Nibble) (s : State) : Result :=
  .next (s.skipIf (s.reg x != s.reg y))

/-- SKP Vx (42_skips R205). -/
def execSkpVx (x : Nibble) (s : State) : Result :=
  .next (s.skipIfKey (.skpVx x) x true)

/-- SKNP Vx (42_skips R206). -/
def execSknpVx (x : Nibble) (s : State) : Result :=
  .next (s.skipIfKey (.sknpVx x) x false)

end Sys2Proof.Machine
end

