-- ==== Sys2Proof/Machine/TimersKeys.lean ====
section
/-! DEFINITION. Timers and key wait: FX07, FX15, FX18, FX0A with its poll step (46_timers_keys R310 to R317). Each meaning is given the state before the cycle, with pc = fa. The timer tick is in Machine/Agents.lean. -/

namespace Sys2Proof.Machine

/-- LD Vx, DT (46_timers_keys R310). -/
def execLdVxDt (x : Nibble) (s : State) : Result :=
  .next (s.advance.setReg x s.dt)

/-- LD DT, Vx (46_timers_keys R311). -/
def execLdDtVx (x : Nibble) (s : State) : Result :=
  .next (s.advance.setDt (s.reg x))

/-- The tone event of FX18 (46_timers_keys R313): tone-on where the new ST is not 0, else tone-off. -/
def toneEvent (b : Byte) : ResultSet :=
  if b = 0 then { toneOff := true } else { toneOn := true }

/-- LD ST, Vx (46_timers_keys R313). -/
def execLdStVx (x : Nibble) (s : State) : Result :=
  .next ((s.advance.setSt (s.reg x)).emit (toneEvent (s.reg x)))

/-- The poll step (46_timers_keys R315): the lowest newly pressed key ends the wait, else the key state is sampled again. -/
def State.pollStep (s : State) (x : Nibble) : State :=
  match lowestKey s.newlyPressed with
  | some k => { s.advance.setReg x (BitVec.ofNat 8 k) with runState := .running }
  | none => { s with kwSnap := s.key, events := { keyWait := true } }

/-- LD Vx, K (46_timers_keys R314, R315): its first execution enters the key wait; in the wait it is the poll
step, which the sequencer re-presents each cycle (40_cycle_driver R147, R148). Log 12. -/
def execLdVxK (x : Nibble) (s : State) : Result :=
  match s.runState with
  | .waitingForKey => .next (s.pollStep x)
  | .running => .next s.enterKeyWait
  | .halted => .next s.enterKeyWait

end Sys2Proof.Machine
end

