-- ==== Sys2Proof/Machine/Sequencer.lean ====
section
/-! DEFINITION. The sequencer's cycle (40_cycle_driver R152) and the move of each agent (00_scope R18). -/

namespace Sys2Proof.Machine

/-- One Running cycle (40_cycle_driver R152): fetch, decode, and the decoded instruction on the state before the cycle. -/
def State.runCycle (s : State) : Result :=
  match s.fetch with
  | .error a => .next (s.fetchError a)
  | .ok w =>
    match decode w with
    | .instr i => exec i s
    | .unknown w' => .next (s.execUnknown w')

/-- One WaitingForKey cycle (40_cycle_driver R148, R152): fetch, then the poll step with the word's X field. Log 12. -/
def State.waitCycle (s : State) : Result :=
  match s.fetch with
  | .error a => .next (s.fetchError a)
  | .ok w => .next (s.pollStep (xField w))

/-- One core step (40_cycle_driver R152); in Halted there is none (R141). Log 5. -/
def State.coreStep (s : State) : Result :=
  match s.runState with
  | .halted => .fault .coreHalted
  | .running => s.beginCycle.runCycle
  | .waitingForKey => s.beginCycle.waitCycle

/-- One move of an agent (00_scope R18). -/
def State.makeMove (s : State) (m : Move) : Result :=
  match m with
  | .core => s.coreStep
  | .tick => .next s.tick
  | .setKey k pressed => .next (s.setKey k pressed)
  | .stop => .next s.stop
  | .load bytes => s.loadMove bytes

/-- The first move of an endless order (46_timers_keys R320). -/
def nextMove (o : Schedule) : Move :=
  match o with
  | .cyclic moves => moves.headD .core
  | .free n => Config.freeMove n

/-- The order after its first move. -/
def laterMoves (o : Schedule) : Schedule :=
  match o with
  | .cyclic moves => .cyclic (moves.rotate 1)
  | .free n => .free (n + 1)

/-- The move that is due: the agenda's first, or the schedule's where the agenda is empty. Log 2. -/
def State.dueMove (s : State) : Move :=
  match s.agenda with
  | m :: _ => m
  | [] => nextMove s.schedule

/-- The schedule after the due move: it moves on where the agenda is empty. -/
def State.restSchedule (s : State) : Schedule :=
  match s.agenda with
  | _ :: _ => s.schedule
  | [] => laterMoves s.schedule

/-- The state with the due move taken off the agenda, or off the schedule where the agenda is empty. Log 2. -/
def State.takeMove (s : State) : State := { s with agenda := s.agenda.tail, schedule := s.restSchedule }

end Sys2Proof.Machine
end

