-- ==== Sys2Proof/Machine/Step.lean ====
section
/-! DEFINITION. The step: the move that is due is made (00_scope R18), and placing an instruction word where the next step fetches it. -/

namespace Sys2Proof.Machine

/-- One step of the machine. -/
def step (s : State) : Host.Outcome State Fault Refusal :=
  s.takeMove.makeMove s.dueMove

/-- s with the table word w, of nbits bits, where the next step fetches and runs it. Log 6. -/
def State.withFetchWord (s : State) (nbits w : Nat) : State := s.placeWord (tableWord nbits w)

end Sys2Proof.Machine
end

