-- ==== Sys2Proof/Safety.lean ====
section
/-! DEFINITION. The terms in which claims about runs are stated: what a step leaves unchanged, part by part, and the invariants that every step keeps. -/

namespace Sys2Proof.Machine

/-- The parts of the state that a frame speaks of: each register, stack entry and byte of memory for itself;
agenda is the moves to come, random the random source. -/
inductive Part where
  | reg (r : Nibble)
  | index
  | pc
  | entry (k : Fin 16)
  | sp
  | delayTimer
  | soundTimer
  | display
  | keys
  | keySnapshot
  | byte (a : Nat)
  | runState
  | err
  | events
  | params
  | agenda
  | random
  | loadOpen
  deriving DecidableEq, Repr

/-- A part of the state is the same before and after. -/
def Part.same (p : Part) (s t : State) : Prop :=
  match p with
  | .reg r => t.reg r = s.reg r
  | .index => t.i = s.i
  | .pc => t.pc = s.pc
  | .entry k => t.stack[k.val] = s.stack[k.val]
  | .sp => t.sp = s.sp
  | .delayTimer => t.dt = s.dt
  | .soundTimer => t.st = s.st
  | .display => t.display = s.display
  | .keys => t.key = s.key
  | .keySnapshot => t.kwSnap = s.kwSnap
  | .byte a => Memory.read t.mem a = Memory.read s.mem a
  | .runState => t.runState = s.runState
  | .err => t.err = s.err
  | .events => t.events = s.events
  | .params => t.params = s.params
  | .agenda => t.agenda = s.agenda ∧ t.schedule = s.schedule
  | .random => t.randFeed = s.randFeed ∧ t.draws = s.draws
  | .loadOpen => t.loadOpen = s.loadOpen

/-- THE FRAME: from s to t nothing changes but the listed parts. -/
def changesOnly (parts : List Part) (s t : State) : Prop := ∀ p, p ∉ parts → p.same s t

/-- The n bytes from a, as parts of the state. -/
def bytesFrom (a n : Nat) : List Part := (List.range n).map fun k => .byte (a + k)

/-- V0 to V[x], as parts of the state. -/
def regsThrough (x : Nibble) : List Part := (List.range (x.toNat + 1)).map fun k => .reg (BitVec.ofNat 4 k)

/-- What an error does (60_exceptions R340): t is s with run_state Halted, the record, and the event halted;
nothing else changed. -/
def haltedWith (k : ErrorKind) (opcode : Option Word) (addr : Option Nat) (s t : State) : Prop :=
  changesOnly [.runState, .err, .events] s t ∧ t.runState = .halted ∧
    t.err = some { kind := k, pc := s.pc, opcode := opcode, addr := addr } ∧ t.events = { halted := true }

/-- The sprite of DRW covers pixel (px, py) with a set bit (45_display R291, R292): bit 7 - c of byte r of the n
bytes at I, at the wrapped position. -/
def spriteCovers (s : State) (x y n : Nibble) (px py : Nat) : Prop :=
  ∃ r c, r < n.toNat ∧ c < 8 ∧ (Memory.read s.mem (s.i.toNat + r)).getLsbD (7 - c) = true ∧
    px = ((s.reg x).toNat % 64 + c) % 64 ∧ py = ((s.reg y).toNat % 32 + r) % 32

/-! ### Runs -/

/-- An endless run of the machine: each state is the step of the one before it (40_cycle_driver R155). -/
def isRun (r : Nat → State) : Prop := ∀ n, step (r n) = .next (r (n + 1))

/-- The fairness premise of 46_timers_keys R320: the run has infinitely many ticks. -/
def fairRun (r : Nat → State) : Prop := ∀ n, ∃ m, n ≤ m ∧ (r m).dueMove = .tick

/-! ### Invariants -/

/-- Memory is in its canonical form. -/
def State.memCanonical (s : State) : Prop := Memory.wf s.mem = true

/-- PC never exceeds 0x10FE and a return address never exceeds 0x1000 (10_state R36). -/
def State.pcBounded (s : State) : Prop :=
  s.pc.toNat ≤ 0x10FE ∧ ∀ k : Fin 16, k.val < s.sp.val → s.stack[k.val].toNat ≤ 0x1000

/-- While the load is open no cycle has run: the program's registers are as at reset (70_reset R372, R374). -/
def State.freshWhileOpen (s : State) : Prop :=
  s.loadOpen = true → s.pc = 0x200 ∧ s.sp = 0 ∧ s.i = 0 ∧ (∀ r, s.reg r = 0) ∧ s.dt = 0 ∧ s.st = 0 ∧
    s.display = Display.clear ∧ s.runState ≠ .waitingForKey

/-- An error record stands only in Halted, and names the instruction at pc (10_state R49, 60_exceptions R340). -/
def State.errPrecise (s : State) : Prop :=
  ∀ e, s.err = some e → s.runState = .halted ∧ e.pc = s.pc

/-- In the key wait the word at pc is an FX0A and can be fetched (40_cycle_driver R148). -/
def State.waitsAtFx0a (s : State) : Prop :=
  s.runState = .waitingForKey → ∃ x, s.fetch = .ok (encode (.ldVxK x))

/-- Two states differ at most in the stack entries at or above SP, which nothing can observe (10_state R39). -/
def sameButStale (s t : State) : Prop :=
  t = { s with stack := t.stack } ∧ ∀ k : Fin 16, k.val < s.sp.val → t.stack[k.val] = s.stack[k.val]

/-- The same for two outcomes. -/
def outcomesSameButStale (p q : Host.Outcome State Fault Refusal) : Prop :=
  match p, q with
  | .next s, .next t => sameButStale s t
  | .fault f, .fault g => f = g
  | .refused f, .refused g => f = g
  | _, _ => False

end Sys2Proof.Machine
end

