-- ==== Sys2Proof/Certificates/Slice0/Obligations.lean ====
section
/-! DEFINITION. The statements for the provers, each from the rules of spec/ that its docstring names. An instruction's meaning is given the state before its cycle, with pc = fa, so the next pc in sequence is s.pc + 2. -/

open Sys2Proof Sys2Proof.Machine

/-! ### Encoding -/

/-- 30_encoding R110, R113: the decoder reads every instruction back from its word, with every operand. -/
def Obligations.DecodeOfEncode : Prop :=
  ∀ i : Instr, i.wellFormed = true → decode (encode i) = .instr i

/-- 30_encoding R110, R113: a word that decodes to an instruction is the word of that instruction, so no bit of it
is dropped; and the decoder gives well-formed instructions only. -/
def Obligations.EncodeOfDecode : Prop :=
  ∀ (w : Word) (i : Instr), decode w = .instr i → encode i = w ∧ i.wellFormed = true

/-- 30_encoding R111 (with the spec's decision D14 for 5XYn and 9XYn): the unknown words are exactly these, and
the variant carries the word. -/
def Obligations.UnknownWordsExactly : Prop :=
  ∀ w w' : Word, decode w = .unknown w' ↔ w' = w ∧
    ((opField w = 0x5 ∧ nField w ≠ 0) ∨ (opField w = 0x9 ∧ nField w ≠ 0) ∨
     (opField w = 0x8 ∧ nField w ∈ ([0x8, 0x9, 0xA, 0xB, 0xC, 0xD, 0xF] : List Nibble)) ∨
     (opField w = 0xE ∧ nnField w ∉ ([0x9E, 0xA1] : List Byte)) ∨
     (opField w = 0xF ∧ nnField w ∉ ([0x07, 0x0A, 0x15, 0x18, 0x1E, 0x29, 0x33, 0x55, 0x65] : List Byte)))

/-- 30_encoding R105 to R110; 95_test_vectors 2.1: one word of each family, laid out in memory order, decodes to
the instruction it stands for. -/
def Obligations.WrittenOutWordsDecode : Prop :=
  decodeBytes [0x01, 0x23] = some (.instr (.sys 0x123), []) ∧
  decodeBytes [0x00, 0xE0] = some (.instr .cls, []) ∧
  decodeBytes [0x23, 0x00] = some (.instr (.call 0x300), []) ∧
  decodeBytes [0x3A, 0x7F] = some (.instr (.seVxByte 0xA 0x7F), []) ∧
  decodeBytes [0x80, 0x14] = some (.instr (.addVxVy 0 1), []) ∧
  decodeBytes [0xD0, 0x15] = some (.instr (.drwVxVyN 0 1 5), []) ∧
  decodeBytes [0xE5, 0xA1] = some (.instr (.sknpVx 5), []) ∧
  decodeBytes [0xF5, 0x33] = some (.instr (.ldBVx 5), []) ∧
  decodeBytes [0xF2, 0x0A] = some (.instr (.ldVxK 2), [])

/-! ### Reset -/

/-- 10_state R54 (the spec's decisions D1 and D2 make the place and the bytes parameters): memory zeroed except the font set at a fixed low address, registers, timers and stack zeroed,
PC = 0x200, for every FONT_BASE and every 80 font bytes. -/
def Obligations.InitialisationZeroesState : Prop :=
  ∀ (p : Params) (font : List Byte), font.length = 80 →
    (∀ a, Memory.read (State.initWith p font).mem a =
      if p.fontBase.val ≤ a ∧ a < p.fontBase.val + 80 then font.getD (a - p.fontBase.val) 0 else 0) ∧
    (∀ r, (State.initWith p font).reg r = 0) ∧ (State.initWith p font).i = 0 ∧
    (State.initWith p font).dt = 0 ∧ (State.initWith p font).st = 0 ∧ (State.initWith p font).sp = 0 ∧
    (∀ k : Fin 16, (State.initWith p font).stack[k.val] = 0) ∧ (State.initWith p font).pc = 0x200

/-- 10_state R47, R55, 00_scope R9 (the spec's decisions D1 to D5, D13, D15, D19; log 1, 7, 9): the state after
reset is the initialisation with the default parameters and font. The six parameters have the values of R9, memory
reads the 80 glyph bytes of R47 from 0x000 and 0 elsewhere, the display is off, no key is pressed, and the machine
is Running without an error. -/
def Obligations.ResetIsDefaultInitialisation : Prop :=
  State.reset = State.initWith defaultParams defaultFont ∧
  State.reset.params.fontBase.val = 0x000 ∧ State.reset.params.fx29Index = .full ∧
  State.reset.params.shiftSrc = .vx ∧ State.reset.params.subVfPolarity = .borrow ∧
  State.reset.params.sysPolicy = .fault ∧ State.reset.params.keyIndexPolicy = .fault ∧
  (∀ a, Memory.read State.reset.mem a =
    ([0xF0, 0x90, 0x90, 0x90, 0xF0, 0x20, 0x60, 0x20, 0x20, 0x70, 0xF0, 0x10, 0xF0, 0x80, 0xF0, 0xF0, 0x10, 0xF0, 0x10, 0xF0,
      0x90, 0x90, 0xF0, 0x10, 0x10, 0xF0, 0x80, 0xF0, 0x10, 0xF0, 0xF0, 0x80, 0xF0, 0x90, 0xF0, 0xF0, 0x10, 0x20, 0x40, 0x40,
      0xF0, 0x90, 0xF0, 0x90, 0xF0, 0xF0, 0x90, 0xF0, 0x10, 0xF0, 0xF0, 0x90, 0xF0, 0x90, 0x90, 0xE0, 0x90, 0xE0, 0x90, 0xE0,
      0xF0, 0x80, 0x80, 0x80, 0xF0, 0xE0, 0x90, 0x90, 0x90, 0xE0, 0xF0, 0x80, 0xF0, 0x80, 0xF0, 0xF0, 0x80, 0xF0, 0x80, 0x80] : List Byte).getD a 0) ∧
  (∀ x y, Display.pixel State.reset.display x y = false) ∧ State.reset.key = 0 ∧ State.reset.kwSnap = 0 ∧
  State.reset.runState = .running ∧ State.reset.err = none

/-- 10_state R36, R49, R54, R55, 40_cycle_driver R148: the invariants below hold after initialisation with any
parameters and font bytes. That the display is clear, the machine Running and err none there is the spec's decision
D19 (log 9); the load-open condition is the model's (log 6), and so is the canonical form of memory (log 7). -/
def Obligations.InitialisationMeetsInvariants : Prop :=
  ∀ (p : Params) (font : List Byte), font.length = 80 →
    (State.initWith p font).memCanonical ∧ (State.initWith p font).pcBounded ∧
    (State.initWith p font).freshWhileOpen ∧ (State.initWith p font).errPrecise ∧
    (State.initWith p font).waitsAtFx0a

/-! ### Invariants that every step keeps -/

/-- Memory keeps its canonical form, and so never lists an address above 0xFFF (20_memory R75). -/
def Obligations.StepKeepsMemoryCanonical : Prop :=
  ∀ s t : State, s.memCanonical → step s = .next t → t.memCanonical

/-- 10_state R36 (the spec's own derivation): PC never exceeds 0x10FE, and a return address never 0x1000. -/
def Obligations.StepKeepsPcBounded : Prop :=
  ∀ s t : State, s.pcBounded → step s = .next t → t.pcBounded

/-- 10_state R49, 60_exceptions R340 (with the spec's decisions D18 and D27 for the record): an error record
stands only in Halted and names the instruction at pc. The second part, what holds while the load is open, is
what makes a failed load's record fit too (70_reset R373; log 6). -/
def Obligations.StepKeepsErrorRecordPrecise : Prop :=
  ∀ s t : State, s.errPrecise → s.freshWhileOpen → step s = .next t → t.errPrecise ∧ t.freshWhileOpen

/-- 40_cycle_driver R148 (the spec's own derivation): while the machine waits for a key, the word at pc is an FX0A. -/
def Obligations.StepKeepsWaitAtFx0a : Prop :=
  ∀ s t : State, s.waitsAtFx0a → step s = .next t → t.waitsAtFx0a

/-- 10_state R39 (the spec's decision D30): the stack entries at or above SP cannot be observed: two states that
differ only there step to outcomes that differ only there. -/
def Obligations.StaleEntriesUnobservable : Prop :=
  ∀ s t : State, sameButStale s t → outcomesSameButStale (step s) (step t)

/-! ### The cycle -/

/-- 40_cycle_driver R142 to R145, R152: when the core's move is due in Running and the two bytes at pc decode to an
instruction, the step is that instruction's meaning. Around it the step takes the move off the agenda, or off the
schedule, and closes the load (log 2, 6). -/
def Obligations.StepRunsDecodedInstruction : Prop :=
  ∀ (s : State) (i : Instr), s.dueMove = .core → s.runState = .running → s.pc.toNat + 2 ≤ 4096 →
    decodeBytes [Memory.read s.mem s.pc.toNat, Memory.read s.mem (s.pc.toNat + 1)] = some (.instr i, []) →
    step s = exec i s.takeMove.beginCycle

/-- 60_exceptions R331: an unknown word raises UnknownOpcode, with the word and nothing else changed. -/
def Obligations.UnknownWordHalts : Prop :=
  ∀ (s : State) (w : Word), s.dueMove = .core → s.runState = .running → s.pc.toNat + 2 ≤ 4096 →
    decodeBytes [Memory.read s.mem s.pc.toNat, Memory.read s.mem (s.pc.toNat + 1)] = some (.unknown w, []) →
    ∃ t, step s = .next t ∧
      haltedWith .unknownOpcode (some w) none s.takeMove.beginCycle t

/-- 40_cycle_driver R142 (the spec's decision D18 for the record): a fetch that leaves memory raises
MemoryOutOfBounds with no opcode and the lowest address above 0xFFF, in Running and in WaitingForKey. -/
def Obligations.FetchOutOfRangeHalts : Prop :=
  ∀ s : State, s.dueMove = .core → s.runState ≠ .halted → 4096 < s.pc.toNat + 2 →
    ∃ t, step s = .next t ∧ haltedWith .memoryOutOfBounds none (some (max s.pc.toNat 4096))
      s.takeMove.beginCycle t

/-- 40_cycle_driver R148: while waiting, the cycle at an FX0A is the FX0A's meaning again. -/
def Obligations.WaitCycleRepresentsFx0a : Prop :=
  ∀ (s : State) (x : Nibble), s.dueMove = .core → s.runState = .waitingForKey →
    s.fetch = .ok (encode (.ldVxK x)) →
    step s = exec (.ldVxK x) s.takeMove.beginCycle

/-- 40_cycle_driver R141: in Halted the core has no step, and no move of another agent that is made there changes
anything but a key (60_exceptions R357), the result set and the moves to come (log 2, 4, 5, 14). -/
def Obligations.HaltedIsFinal : Prop :=
  ∀ s : State, s.runState = .halted →
    (s.dueMove = .core → step s = .fault .coreHalted) ∧
    ∀ t, step s = .next t → changesOnly [.keys, .events, .agenda] s t

/-! ### Rules over all instructions -/

/-- 40_cycle_driver R146: an instruction commits, halts or waits; the model's meanings have no other end. -/
def Obligations.EveryInstructionAnswersNext : Prop :=
  ∀ (i : Instr) (s : State), ∃ t, exec i s = .next t

/-- 00_scope R15, 60_exceptions R340 (the spec's decision D18 for the record): an instruction that raises an error
applies none of its writes, and the pc stays at the instruction. -/
def Obligations.ErrorCommitsNothing : Prop :=
  ∀ (i : Instr) (s t : State), s.runState = .running → exec i s = .next t → t.runState = .halted →
    ∃ k a, haltedWith k (some (encode i)) a s t

/-- 20_memory R77: FX33 and FX55 alone write memory. -/
def Obligations.OnlyFx33AndFx55WriteMemory : Prop :=
  ∀ (i : Instr) (s t : State), exec i s = .next t → (∀ x, i ≠ .ldBVx x ∧ i ≠ .ldMemVx x) →
    ∀ a, Memory.read t.mem a = Memory.read s.mem a

/-- 10_state R37 (the spec's own derivation): CALL and RET alone touch the stack. -/
def Obligations.OnlyCallAndRetTouchStack : Prop :=
  ∀ (i : Instr) (s t : State), exec i s = .next t → (∀ nnn, i ≠ .call nnn) → i ≠ .ret →
    t.sp = s.sp ∧ t.stack = s.stack

/-- 10_state R33, R42 to R45, R51 and the spec's decisions D10 and D16: I is written by ANNN, FX1E and FX29 alone,
DT by FX15, ST by FX18, the display by CLS and DRW, the key snapshot by FX0A. No instruction writes the key state,
nor what is the model's own: the parameters (log 1), the moves to come (log 2) and the load flag (log 6). -/
def Obligations.SpecialStateHasItsWriters : Prop :=
  ∀ (i : Instr) (s t : State), exec i s = .next t →
    ((∀ nnn x, i ≠ .ldIAddr nnn ∧ i ≠ .addIVx x ∧ i ≠ .ldFVx x) → t.i = s.i) ∧
    ((∀ x, i ≠ .ldDtVx x) → t.dt = s.dt) ∧
    ((∀ x, i ≠ .ldStVx x) → t.st = s.st) ∧
    (i ≠ .cls → (∀ x y n, i ≠ .drwVxVyN x y n) → t.display = s.display) ∧
    ((∀ x, i ≠ .ldVxK x) → t.kwSnap = s.kwSnap) ∧
    t.key = s.key ∧ t.params = s.params ∧ t.agenda = s.agenda ∧ t.schedule = s.schedule ∧
    t.loadOpen = s.loadOpen

/-- 10_state R52 (the spec's decisions D6 to D9): VF changes only as the flag of 8XY4 to 8XY7, 8XYE and DXYN, or as
the destination X = F of an instruction that writes VX. -/
def Obligations.VfHasItsWriters : Prop :=
  ∀ (i : Instr) (s t : State), exec i s = .next t → t.reg 0xF ≠ s.reg 0xF →
    (∃ x y n, i = .addVxVy x y ∨ i = .subVxVy x y ∨ i = .subnVxVy x y ∨ i = .shrVxVy x y ∨ i = .shlVxVy x y ∨
      i = .drwVxVyN x y n) ∨
    (∃ y nn, i = .ldVxByte 0xF nn ∨ i = .addVxByte 0xF nn ∨ i = .ldVxVy 0xF y ∨ i = .orVxVy 0xF y ∨
      i = .andVxVy 0xF y ∨ i = .xorVxVy 0xF y ∨ i = .rndVxByte 0xF nn ∨ i = .ldVxDt 0xF ∨ i = .ldVxK 0xF ∨
      i = .ldVxMem 0xF)

/-- 10_state R34, 40_cycle_driver R143: in Running, an instruction that neither jumps, calls, returns, skips nor
waits, and that does not halt, leaves pc at its own address plus 2. -/
def Obligations.PcAdvancesByTwo : Prop :=
  ∀ (i : Instr) (s t : State), s.runState = .running → exec i s = .next t → t.runState = .running →
    (∀ nnn, i ≠ .jp nnn ∧ i ≠ .call nnn ∧ i ≠ .jpV0Addr nnn) → i ≠ .ret →
    (∀ x y nn, i ≠ .seVxByte x nn ∧ i ≠ .sneVxByte x nn ∧ i ≠ .seVxVy x y ∧ i ≠ .sneVxVy x y ∧
      i ≠ .skpVx x ∧ i ≠ .sknpVx x) →
    t.pc = s.pc + 2

/-! ### Control flow -/

/-- 41_control_flow R180 (the spec's decision D13): SYS halts with UnknownOpcode under SYS_POLICY = fault, and only
advances under nop. -/
def Obligations.SysFollowsPolicy : Prop :=
  ∀ (s : State) (nnn : Addr12), ∃ t, exec (.sys nnn) s = .next t ∧
    (s.params.sysPolicy = .fault → haltedWith .unknownOpcode (some ((0x0 : Nibble) ++ nnn)) none s t) ∧
    (s.params.sysPolicy = .nop → t.pc = s.pc + 2 ∧ t.events = {} ∧ changesOnly [.pc, .events] s t)

/-- 41_control_flow R182: 1NNN decodes to JP addr, which sets pc to NNN and changes nothing else. -/
def Obligations.JpSetsPc : Prop :=
  ∀ (s : State) (nnn : Addr12),
    decode ((0x1 : Nibble) ++ nnn) = .instr (.jp nnn) ∧
    ∃ t, exec (.jp nnn) s = .next t ∧ t.pc.toNat = nnn.toNat ∧ t.events = {} ∧ changesOnly [.pc, .events] s t

/-- 41_control_flow R184 (the spec's decision D29 for the 16-bit sum): JP V0 sets pc to NNN + V0. -/
def Obligations.JpV0SetsPcToSum : Prop :=
  ∀ (s : State) (nnn : Addr12),
    ∃ t, exec (.jpV0Addr nnn) s = .next t ∧ t.pc.toNat = nnn.toNat + (s.reg 0).toNat ∧ t.events = {} ∧
      changesOnly [.pc, .events] s t

/-- 10_state R40, 41_control_flow R183, 60_exceptions R334: below depth 16 CALL pushes fa + 2 and jumps; at depth
16 it raises StackOverflow (the spec's decision D18 for the record). -/
def Obligations.CallPushesReturnAddress : Prop :=
  ∀ (s : State) (nnn : Addr12),
    (∀ h : s.sp.val < 16, ∃ t, exec (.call nnn) s = .next t ∧ t.stack[s.sp.val] = s.pc + 2 ∧
      t.sp.val = s.sp.val + 1 ∧ t.pc.toNat = nnn.toNat ∧ t.events = {} ∧
      changesOnly [.entry ⟨s.sp.val, h⟩, .sp, .pc, .events] s t) ∧
    (s.sp.val = 16 → ∃ t, exec (.call nnn) s = .next t ∧
      haltedWith .stackOverflow (some ((0x2 : Nibble) ++ nnn)) none s t)

/-- 10_state R41, 41_control_flow R181, 60_exceptions R335: above depth 0 RET pops the pc; at depth 0 it raises
StackUnderflow (the spec's decision D18 for the record). -/
def Obligations.RetPopsReturnAddress : Prop :=
  ∀ s : State,
    (∀ _ : 0 < s.sp.val, ∃ t, exec .ret s = .next t ∧ t.pc = s.stack[s.sp.val - 1] ∧
      t.sp.val = s.sp.val - 1 ∧ t.events = {} ∧ changesOnly [.sp, .pc, .events] s t) ∧
    (s.sp.val = 0 → ∃ t, exec .ret s = .next t ∧ haltedWith .stackUnderflow (some 0x00EE) none s t)

/-- 41_control_flow R186 (the spec's own derivation): a RET that finds the depth and the entry a CALL left returns
to the instruction after the CALL, at the CALL's own depth, whatever else happened between them. -/
def Obligations.ReturnGoesAfterItsCall : Prop :=
  ∀ (s t u : State) (nnn : Addr12) (h : s.sp.val < 16), exec (.call nnn) s = .next t →
    u.sp = t.sp → u.stack[s.sp.val] = t.stack[s.sp.val] →
    ∃ w, exec .ret u = .next w ∧ w.pc = s.pc + 2 ∧ w.sp = s.sp

/-! ### Skips -/

/-- 42_skips R201: 3XNN decodes to SE Vx, byte, which adds 4 in all to the fetch address where V[X] = NN and 2
where it does not, and changes nothing else. -/
def Obligations.SeByteSkips : Prop :=
  ∀ (s : State) (x : Nibble) (nn : Byte),
    decode ((0x3 : Nibble) ++ x ++ nn) = .instr (.seVxByte x nn) ∧
    ∃ t, exec (.seVxByte x nn) s = .next t ∧ t.pc = (if s.reg x = nn then s.pc + 4 else s.pc + 2) ∧
      t.events = {} ∧ changesOnly [.pc, .events] s t

/-- 42_skips R200, R202 to R204: SNE Vx, byte, SE Vx, Vy and SNE Vx, Vy. -/
def Obligations.RegisterSkips : Prop :=
  ∀ (s : State) (x y : Nibble) (nn : Byte),
    (∃ t, exec (.sneVxByte x nn) s = .next t ∧ t.pc = (if s.reg x = nn then s.pc + 2 else s.pc + 4) ∧
      t.events = {} ∧ changesOnly [.pc, .events] s t) ∧
    (∃ t, exec (.seVxVy x y) s = .next t ∧ t.pc = (if s.reg x = s.reg y then s.pc + 4 else s.pc + 2) ∧
      t.events = {} ∧ changesOnly [.pc, .events] s t) ∧
    (∃ t, exec (.sneVxVy x y) s = .next t ∧ t.pc = (if s.reg x = s.reg y then s.pc + 2 else s.pc + 4) ∧
      t.events = {} ∧ changesOnly [.pc, .events] s t)

/-- 42_skips R205 to R207 (the spec's decision D15 for low_nibble): where V[X] ≤ 15, or under KEY_INDEX_POLICY =
low_nibble, SKP skips where key V[X] mod 16 is pressed and SKNP where it is not. -/
def Obligations.KeySkips : Prop :=
  ∀ (s : State) (x : Nibble), (s.reg x).toNat ≤ 15 ∨ s.params.keyIndexPolicy = .lowNibble →
    (∃ t, exec (.skpVx x) s = .next t ∧
      t.pc = (if s.key.getLsbD ((s.reg x).toNat % 16) then s.pc + 4 else s.pc + 2) ∧
      t.events = {} ∧ changesOnly [.pc, .events] s t) ∧
    (∃ t, exec (.sknpVx x) s = .next t ∧
      t.pc = (if s.key.getLsbD ((s.reg x).toNat % 16) then s.pc + 2 else s.pc + 4) ∧
      t.events = {} ∧ changesOnly [.pc, .events] s t)

/-- 42_skips R207, 60_exceptions R337 (the spec's decision D15): under KEY_INDEX_POLICY = fault a key number above
15 raises KeyIndexOutOfRange. -/
def Obligations.KeyIndexAboveFifteenHalts : Prop :=
  ∀ (s : State) (x : Nibble), 15 < (s.reg x).toNat → s.params.keyIndexPolicy = .fault →
    (∃ t, exec (.skpVx x) s = .next t ∧
      haltedWith .keyIndexOutOfRange (some ((0xE : Nibble) ++ x ++ (0x9E : Byte))) none s t) ∧
    (∃ t, exec (.sknpVx x) s = .next t ∧
      haltedWith .keyIndexOutOfRange (some ((0xE : Nibble) ++ x ++ (0xA1 : Byte))) none s t)

/-! ### Register loads, ALU, random -/

/-- 43_alu R222: 6XNN decodes to LD Vx, byte, which writes NN to V[X] and nothing else. -/
def Obligations.LdByteWritesImmediate : Prop :=
  ∀ (s : State) (x : Nibble) (nn : Byte),
    decode ((0x6 : Nibble) ++ x ++ nn) = .instr (.ldVxByte x nn) ∧
    ∃ t, exec (.ldVxByte x nn) s = .next t ∧ t.reg x = nn ∧ t.pc = s.pc + 2 ∧ t.events = {} ∧
      changesOnly [.reg x, .pc, .events] s t

/-- 43_alu R223 to R227 (the spec's decisions D7 and D8 for VF): ADD Vx, byte, LD Vx, Vy, OR, AND and XOR write
V[X], and VF only as V[X]. -/
def Obligations.MovesAndLogicWriteVxOnly : Prop :=
  ∀ (s : State) (x y : Nibble) (nn : Byte),
    (∃ t, exec (.addVxByte x nn) s = .next t ∧ (t.reg x).toNat = ((s.reg x).toNat + nn.toNat) % 256 ∧
      t.pc = s.pc + 2 ∧ t.events = {} ∧ changesOnly [.reg x, .pc, .events] s t) ∧
    (∃ t, exec (.ldVxVy x y) s = .next t ∧ t.reg x = s.reg y ∧
      t.pc = s.pc + 2 ∧ t.events = {} ∧ changesOnly [.reg x, .pc, .events] s t) ∧
    (∃ t, exec (.orVxVy x y) s = .next t ∧
      (∀ b, (t.reg x).getLsbD b = ((s.reg x).getLsbD b || (s.reg y).getLsbD b)) ∧
      t.pc = s.pc + 2 ∧ t.events = {} ∧ changesOnly [.reg x, .pc, .events] s t) ∧
    (∃ t, exec (.andVxVy x y) s = .next t ∧
      (∀ b, (t.reg x).getLsbD b = ((s.reg x).getLsbD b && (s.reg y).getLsbD b)) ∧
      t.pc = s.pc + 2 ∧ t.events = {} ∧ changesOnly [.reg x, .pc, .events] s t) ∧
    (∃ t, exec (.xorVxVy x y) s = .next t ∧
      (∀ b, (t.reg x).getLsbD b = ((s.reg x).getLsbD b ^^ (s.reg y).getLsbD b)) ∧
      t.pc = s.pc + 2 ∧ t.events = {} ∧ changesOnly [.reg x, .pc, .events] s t)

/-- 43_alu R228 (the spec's decision D6 for X = F): 8XY4 decodes to ADD Vx, Vy. The sum is mod 256 and VF is the
carry of the old values, written after V[X], so that it stands where X = F. -/
def Obligations.AddSetsCarry : Prop :=
  ∀ (s : State) (x y : Nibble),
    decode ((0x8 : Nibble) ++ x ++ y ++ (0x4 : Nibble)) = .instr (.addVxVy x y) ∧
    ∃ t, exec (.addVxVy x y) s = .next t ∧
      (x ≠ 0xF → (t.reg x).toNat = ((s.reg x).toNat + (s.reg y).toNat) % 256) ∧
      t.reg 0xF = (if 255 < (s.reg x).toNat + (s.reg y).toNat then 1 else 0) ∧
      t.pc = s.pc + 2 ∧ t.events = {} ∧ changesOnly [.reg x, .reg 0xF, .pc, .events] s t

/-- 43_alu R229, R231, R235 (the spec's decisions D5 and D6): SUB and SUBN, in integers mod 256; VF = 1 says that
the subtraction borrowed, or that it did not, by SUB_VF_POLARITY. -/
def Obligations.SubtractionsSetBorrow : Prop :=
  ∀ (s : State) (x y : Nibble),
    (∃ t, exec (.subVxVy x y) s = .next t ∧
      (x ≠ 0xF → ((t.reg x).toNat : Int) = (((s.reg x).toNat : Int) - (s.reg y).toNat) % 256) ∧
      (s.params.subVfPolarity = .borrow → t.reg 0xF = if (s.reg x).toNat < (s.reg y).toNat then 1 else 0) ∧
      (s.params.subVfPolarity = .notBorrow → t.reg 0xF = if (s.reg x).toNat < (s.reg y).toNat then 0 else 1) ∧
      t.pc = s.pc + 2 ∧ t.events = {} ∧ changesOnly [.reg x, .reg 0xF, .pc, .events] s t) ∧
    (∃ t, exec (.subnVxVy x y) s = .next t ∧
      (x ≠ 0xF → ((t.reg x).toNat : Int) = (((s.reg y).toNat : Int) - (s.reg x).toNat) % 256) ∧
      (s.params.subVfPolarity = .borrow → t.reg 0xF = if (s.reg y).toNat < (s.reg x).toNat then 1 else 0) ∧
      (s.params.subVfPolarity = .notBorrow → t.reg 0xF = if (s.reg y).toNat < (s.reg x).toNat then 0 else 1) ∧
      t.pc = s.pc + 2 ∧ t.events = {} ∧ changesOnly [.reg x, .reg 0xF, .pc, .events] s t)

/-- 43_alu R230, R232, R236 (the spec's decisions D4 and D6): SHR and SHL shift V[X], or V[Y] under SHIFT_SRC = VY,
by one into V[X], and VF is the bit shifted out. -/
def Obligations.ShiftsSetBitShiftedOut : Prop :=
  ∀ (s : State) (x y : Nibble) (src : Byte),
    (s.params.shiftSrc = .vx ∧ src = s.reg x ∨ s.params.shiftSrc = .vy ∧ src = s.reg y) →
    (∃ t, exec (.shrVxVy x y) s = .next t ∧ (x ≠ 0xF → (t.reg x).toNat = src.toNat / 2) ∧
      (t.reg 0xF).toNat = src.toNat % 2 ∧
      t.pc = s.pc + 2 ∧ t.events = {} ∧ changesOnly [.reg x, .reg 0xF, .pc, .events] s t) ∧
    (∃ t, exec (.shlVxVy x y) s = .next t ∧ (x ≠ 0xF → (t.reg x).toNat = src.toNat * 2 % 256) ∧
      (t.reg 0xF).toNat = src.toNat / 128 ∧
      t.pc = s.pc + 2 ∧ t.events = {} ∧ changesOnly [.reg x, .reg 0xF, .pc, .events] s t)

/-- 43_alu R233, 60_exceptions R360 (the spec's decision D26; log 3 for how a draw is held): RND draws one byte whatever NN is, and writes
the byte AND NN. The byte is the random source's next answer where one is ready, else the free value of this draw;
nothing is claimed of either. -/
def Obligations.RndDrawsOneByte : Prop :=
  ∀ (s : State) (x : Nibble) (nn : Byte), ∃ t, exec (.rndVxByte x nn) s = .next t ∧
    (∀ b rest, s.randFeed = b :: rest → t.reg x = b &&& nn ∧ t.randFeed = rest) ∧
    (s.randFeed = [] → t.reg x = Config.randByte s.draws &&& nn ∧ t.randFeed = []) ∧
    t.draws = s.draws + 1 ∧ t.pc = s.pc + 2 ∧ t.events = {} ∧ changesOnly [.reg x, .random, .pc, .events] s t

/-! ### Index register and memory -/

/-- 44_index_memory R261: ANNN decodes to LD I, addr, which writes NNN to I and nothing else. -/
def Obligations.LdIWritesAddress : Prop :=
  ∀ (s : State) (nnn : Addr12),
    decode ((0xA : Nibble) ++ nnn) = .instr (.ldIAddr nnn) ∧
    ∃ t, exec (.ldIAddr nnn) s = .next t ∧ t.i.toNat = nnn.toNat ∧
      t.pc = s.pc + 2 ∧ t.events = {} ∧ changesOnly [.index, .pc, .events] s t

/-- 44_index_memory R262, R263 (the spec's decisions D1, D3 and D9): ADD I adds V[X] mod 2^16 without a range
check, LD F points I at the glyph of the digit. -/
def Obligations.AddIAndLdFWriteI : Prop :=
  ∀ (s : State) (x : Nibble),
    (∃ t, exec (.addIVx x) s = .next t ∧ t.i.toNat = (s.i.toNat + (s.reg x).toNat) % 65536 ∧
      t.pc = s.pc + 2 ∧ t.events = {} ∧ changesOnly [.index, .pc, .events] s t) ∧
    (∃ t, exec (.ldFVx x) s = .next t ∧
      (s.params.fx29Index = .full → t.i.toNat = s.params.fontBase.val + 5 * (s.reg x).toNat) ∧
      (s.params.fx29Index = .lowNibble → t.i.toNat = s.params.fontBase.val + 5 * ((s.reg x).toNat % 16)) ∧
      t.pc = s.pc + 2 ∧ t.events = {} ∧ changesOnly [.index, .pc, .events] s t)

/-- 44_index_memory R264 (the spec's decision D18 for the record): FX33 decodes to LD B, Vx, which writes the hundreds, tens and ones digits of V[X] to I,
I+1 and I+2 where they are in memory, and else raises MemoryOutOfBounds at the lowest address that is not. -/
def Obligations.BcdStoresThreeDigits : Prop :=
  ∀ (s : State) (x : Nibble),
    decode ((0xF : Nibble) ++ x ++ (0x33 : Byte)) = .instr (.ldBVx x) ∧
    (s.i.toNat + 2 ≤ 0xFFF → ∃ t, exec (.ldBVx x) s = .next t ∧
      (Memory.read t.mem s.i.toNat).toNat = (s.reg x).toNat / 100 ∧
      (Memory.read t.mem (s.i.toNat + 1)).toNat = (s.reg x).toNat / 10 % 10 ∧
      (Memory.read t.mem (s.i.toNat + 2)).toNat = (s.reg x).toNat % 10 ∧
      t.pc = s.pc + 2 ∧ t.events = {} ∧ changesOnly (bytesFrom s.i.toNat 3 ++ [.pc, .events]) s t) ∧
    (0xFFF < s.i.toNat + 2 → ∃ t, exec (.ldBVx x) s = .next t ∧
      haltedWith .memoryOutOfBounds (some ((0xF : Nibble) ++ x ++ (0x33 : Byte))) (some (max s.i.toNat 0x1000)) s t)

/-- 44_index_memory R265 (the spec's decision D10 for I): FX55 stores V0 to V[X] at I to I + X, and I is unchanged. -/
def Obligations.StoreRegistersWritesBytes : Prop :=
  ∀ (s : State) (x : Nibble), s.i.toNat + x.toNat ≤ 0xFFF →
    ∃ t, exec (.ldMemVx x) s = .next t ∧
      (∀ r : Nibble, r.toNat ≤ x.toNat → Memory.read t.mem (s.i.toNat + r.toNat) = s.reg r) ∧
      t.pc = s.pc + 2 ∧ t.events = {} ∧ changesOnly (bytesFrom s.i.toNat (x.toNat + 1) ++ [.pc, .events]) s t

/-- 44_index_memory R266 (the spec's decision D10 for I): FX65 loads V0 to V[X] from I to I + X, and I is unchanged. -/
def Obligations.LoadRegistersReadsBytes : Prop :=
  ∀ (s : State) (x : Nibble), s.i.toNat + x.toNat ≤ 0xFFF →
    ∃ t, exec (.ldVxMem x) s = .next t ∧
      (∀ r : Nibble, r.toNat ≤ x.toNat → t.reg r = Memory.read s.mem (s.i.toNat + r.toNat)) ∧
      t.pc = s.pc + 2 ∧ t.events = {} ∧ changesOnly (regsThrough x ++ [.pc, .events]) s t

/-- 44_index_memory R265, R266, R268; 20_memory R76 (the spec's decision D18 for the address): a transfer of V0 to
V[X] that would leave memory changes nothing and raises MemoryOutOfBounds at the lowest address above 0xFFF. -/
def Obligations.TransferOutOfRangeHalts : Prop :=
  ∀ (s : State) (x : Nibble), 0xFFF < s.i.toNat + x.toNat →
    (∃ t, exec (.ldMemVx x) s = .next t ∧
      haltedWith .memoryOutOfBounds (some ((0xF : Nibble) ++ x ++ (0x55 : Byte))) (some (max s.i.toNat 0x1000)) s t) ∧
    (∃ t, exec (.ldVxMem x) s = .next t ∧
      haltedWith .memoryOutOfBounds (some ((0xF : Nibble) ++ x ++ (0x65 : Byte))) (some (max s.i.toNat 0x1000)) s t)

/-- 44_index_memory R265, R266: registers stored by FX55 come back by FX65 through the same I and memory. -/
def Obligations.LoadGivesBackStoredRegisters : Prop :=
  ∀ (s t u : State) (x : Nibble), s.i.toNat + x.toNat ≤ 0xFFF → exec (.ldMemVx x) s = .next t →
    u.mem = t.mem → u.i = s.i →
    ∃ w, exec (.ldVxMem x) u = .next w ∧ ∀ r : Nibble, r.toNat ≤ x.toNat → w.reg r = s.reg r

/-- 20_memory R84 (the spec's own derivation): bytes that FX55 stores at the next pc are the next word fetched. -/
def Obligations.StoreSeenByNextFetch : Prop :=
  ∀ (s t : State) (x r r' : Nibble), s.i.toNat + x.toNat ≤ 0xFFF → exec (.ldMemVx x) s = .next t →
    t.pc.toNat = s.i.toNat + r.toNat → r'.toNat = r.toNat + 1 → r'.toNat ≤ x.toNat →
    t.fetch = .ok (s.reg r ++ s.reg r')

/-! ### Display -/

/-- 45_display R290 (the spec's decision D25 for the event): CLS turns every pixel off. -/
def Obligations.ClsClearsDisplay : Prop :=
  ∀ s : State, ∃ t, exec .cls s = .next t ∧ (∀ x y, Display.pixel t.display x y = false) ∧
    t.events = { displayUpdated := true } ∧ t.pc = s.pc + 2 ∧ changesOnly [.display, .pc, .events] s t

/-- 45_display R292 (the spec's decisions D11, D12, D18, D34): DXYN decodes to DRW. Where the sprite's N bytes are in memory (N = 0 reads none), each pixel it
covers with a set bit is flipped and no other, VF is 1 exactly where a covered pixel was on, and display-updated
is emitted; else MemoryOutOfBounds at the lowest address above 0xFFF, and nothing changes. -/
def Obligations.DrwXorsSprite : Prop :=
  ∀ (s : State) (x y n : Nibble),
    decode ((0xD : Nibble) ++ x ++ y ++ n) = .instr (.drwVxVyN x y n) ∧
    (n = 0 ∨ s.i.toNat + n.toNat - 1 ≤ 0xFFF → ∃ t, exec (.drwVxVyN x y n) s = .next t ∧
      (∀ px py, px < 64 → py < 32 → (Display.pixel t.display px py = true ↔
        ¬(Display.pixel s.display px py = true ↔ spriteCovers s x y n px py))) ∧
      (t.reg 0xF = 1 ∨ t.reg 0xF = 0) ∧
      (t.reg 0xF = 1 ↔ ∃ px py, spriteCovers s x y n px py ∧ Display.pixel s.display px py = true) ∧
      t.events = { displayUpdated := true } ∧ t.pc = s.pc + 2 ∧
      changesOnly [.display, .reg 0xF, .pc, .events] s t) ∧
    (n ≠ 0 → 0xFFF < s.i.toNat + n.toNat - 1 → ∃ t, exec (.drwVxVyN x y n) s = .next t ∧
      haltedWith .memoryOutOfBounds (some ((0xD : Nibble) ++ x ++ y ++ n)) (some (max s.i.toNat 0x1000)) s t)

/-- 45_display R296: drawing a sprite twice, its coordinates not in VF, gives back the display, and the second draw
sets VF exactly where the first turned a pixel on. -/
def Obligations.DrawingTwiceRestoresDisplay : Prop :=
  ∀ (s t : State) (x y n : Nibble), x ≠ 0xF → y ≠ 0xF → (n = 0 ∨ s.i.toNat + n.toNat - 1 ≤ 0xFFF) →
    exec (.drwVxVyN x y n) s = .next t →
    ∃ u, exec (.drwVxVyN x y n) t = .next u ∧ u.display = s.display ∧
      (u.reg 0xF = 1 ↔ ∃ px py, Display.pixel s.display px py = false ∧ Display.pixel t.display px py = true)

/-! ### Timers and keys -/

/-- 46_timers_keys R310, R311: FX07 decodes to LD Vx, DT, which reads DT into V[X], and FX15 to LD DT, Vx, which
writes V[X] to DT; neither changes anything else. -/
def Obligations.DelayTimerReadAndWrite : Prop :=
  ∀ (s : State) (x : Nibble),
    decode ((0xF : Nibble) ++ x ++ (0x07 : Byte)) = .instr (.ldVxDt x) ∧
    decode ((0xF : Nibble) ++ x ++ (0x15 : Byte)) = .instr (.ldDtVx x) ∧
    (∃ t, exec (.ldVxDt x) s = .next t ∧ t.reg x = s.dt ∧ t.pc = s.pc + 2 ∧ t.events = {} ∧
      changesOnly [.reg x, .pc, .events] s t) ∧
    (∃ t, exec (.ldDtVx x) s = .next t ∧ t.dt = s.reg x ∧ t.pc = s.pc + 2 ∧ t.events = {} ∧
      changesOnly [.delayTimer, .pc, .events] s t)

/-- 46_timers_keys R313 (the spec's decision D25 for the events): FX18 writes V[X] to ST and emits tone-on where it
is not 0, else tone-off. -/
def Obligations.SoundTimerWriteSaysTone : Prop :=
  ∀ (s : State) (x : Nibble),
    ∃ t, exec (.ldStVx x) s = .next t ∧ t.st = s.reg x ∧ t.pc = s.pc + 2 ∧
      t.events = { toneOn := t.toneActive, toneOff := !t.toneActive } ∧
      changesOnly [.soundTimer, .pc, .events] s t

/-- 46_timers_keys R318 and R319 (the spec's decisions D21 and D25): a tick takes one from each timer that is not 0,
never below 0, and emits tone-off where ST goes from 1 to 0; in Halted it changes no timer. -/
def Obligations.TickCountsDown : Prop :=
  ∀ s : State, s.dueMove = .tick →
    ∃ t, step s = .next t ∧ t.agenda = s.agenda.tail ∧ t.schedule = s.restSchedule ∧
      (s.runState ≠ .halted → t.dt.toNat = s.dt.toNat - 1 ∧ t.st.toNat = s.st.toNat - 1 ∧
        t.events = { toneOff := s.st == 1 } ∧
        changesOnly [.delayTimer, .soundTimer, .events, .agenda] s t) ∧
      (s.runState = .halted → t.events = {} ∧ changesOnly [.events, .agenda] s t)

/-- 46_timers_keys R314, 40_cycle_driver R147 (the spec's decisions D16 and D17): an FX0A's first execution always
enters the key wait, with the key state sampled and pc at the FX0A. -/
def Obligations.Fx0aEntersKeyWait : Prop :=
  ∀ (s : State) (x : Nibble), s.runState = .running →
    ∃ t, exec (.ldVxK x) s = .next t ∧ t.runState = .waitingForKey ∧ t.kwSnap = s.key ∧
      t.events = { keyWait := true } ∧ changesOnly [.runState, .keySnapshot, .events] s t

/-- 46_timers_keys R315 (the spec's decision D16): in the wait, the lowest key that is pressed now and was released
at the last sample is written to V[X], and the machine runs on after the FX0A. -/
def Obligations.Fx0aCompletesOnNewPress : Prop :=
  ∀ (s : State) (x k : Nibble), s.runState = .waitingForKey →
    s.key.getLsbD k.toNat = true → s.kwSnap.getLsbD k.toNat = false →
    (∀ j, j < k.toNat → s.key.getLsbD j = true → s.kwSnap.getLsbD j = true) →
    ∃ t, exec (.ldVxK x) s = .next t ∧ (t.reg x).toNat = k.toNat ∧ t.pc = s.pc + 2 ∧ t.runState = .running ∧
      t.events = {} ∧ changesOnly [.reg x, .pc, .runState, .events] s t

/-- 46_timers_keys R315, R317 (the spec's decision D16): in the wait, without a new press, the key state is sampled
again and the machine waits on at the FX0A. -/
def Obligations.Fx0aWaitsWithoutNewPress : Prop :=
  ∀ (s : State) (x : Nibble), s.runState = .waitingForKey →
    (∀ j, s.key.getLsbD j = true → s.kwSnap.getLsbD j = true) →
    ∃ t, exec (.ldVxK x) s = .next t ∧ t.kwSnap = s.key ∧ t.events = { keyWait := true } ∧
      changesOnly [.keySnapshot, .events] s t

/-! ### Host moves -/

/-- 60_exceptions R357 (the spec's decision D24): a key write sets one key of the key state and changes nothing
else, in every run_state; the result set is empty (log 4). -/
def Obligations.KeyWriteSetsOneKey : Prop :=
  ∀ (s : State) (k : Nibble) (pressed : Bool), s.dueMove = .setKey k pressed →
    ∃ t, step s = .next t ∧ t.keyPressed k = pressed ∧ (∀ j, j ≠ k → t.keyPressed j = s.keyPressed j) ∧
      t.events = {} ∧ t.agenda = s.agenda.tail ∧ t.schedule = s.restSchedule ∧
      changesOnly [.keys, .events, .agenda] s t

/-- 40_cycle_driver R149 (the spec's decision D28 for the key wait): a stop request halts a machine that is not
halted, with no error record. -/
def Obligations.StopHaltsWithoutError : Prop :=
  ∀ s : State, s.dueMove = .stop → s.runState ≠ .halted →
    ∃ t, step s = .next t ∧ t.runState = .halted ∧ t.err = none ∧ t.events = { halted := true } ∧
      t.agenda = s.agenda.tail ∧ t.schedule = s.restSchedule ∧
      changesOnly [.runState, .err, .events, .agenda] s t

/-- 70_reset R372, R373; 60_exceptions R356 (the spec's decision D27): while the load is open in Running, an image
of at most 3584 bytes is written from 0x200 up; a longer one writes nothing and halts with ProgramTooLarge. Once
the load is closed a load is refused (the model's choice, log 6). -/
def Obligations.LoadWritesImage : Prop :=
  ∀ (s : State) (bytes : List Byte), s.dueMove = .load bytes →
    (s.loadOpen = true → s.runState = .running → bytes.length ≤ 3584 → ∃ t, step s = .next t ∧
      (∀ k, k < bytes.length → Memory.read t.mem (0x200 + k) = bytes.getD k 0) ∧ t.loadOpen = false ∧
      t.events = {} ∧ t.agenda = s.agenda.tail ∧ t.schedule = s.restSchedule ∧
      changesOnly (bytesFrom 0x200 bytes.length ++ [.loadOpen, .events, .agenda]) s t) ∧
    (s.loadOpen = true → s.runState = .running → 3584 < bytes.length → ∃ t, step s = .next t ∧
      t.runState = .halted ∧
      t.err = some { kind := .programTooLarge, pc := 0x200, opcode := none, addr := none } ∧
      t.events = { halted := true } ∧ t.loadOpen = false ∧ t.agenda = s.agenda.tail ∧
      t.schedule = s.restSchedule ∧
      changesOnly [.runState, .err, .loadOpen, .events, .agenda] s t) ∧
    (s.loadOpen = false ∨ s.runState ≠ .running → step s = .refused .loadClosed)
end

