-- ==== Sys2Proof/Laws/Decode.lean ====
section
/-! SUPPORT. The fields of an encoded word, and a word put together again from its fields (30_encoding R101). -/

namespace Sys2Proof

variable (op x y n : Nibble) (nn : Byte) (nnn : Addr12) (w : Word)

theorem extractLsb'_append_low {a b : Nat} (u : BitVec a) (v : BitVec b) :
    (u ++ v).extractLsb' 0 b = v := by
  refine BitVec.eq_of_getLsbD_eq fun i hi => ?_
  simp [BitVec.getLsbD_append, hi]

theorem extractLsb'_append_high {a b l c : Nat} (u : BitVec a) (v : BitVec b) (h : b ≤ l) :
    (u ++ v).extractLsb' l c = u.extractLsb' (l - b) c := by
  refine BitVec.eq_of_getLsbD_eq fun i hi => ?_
  simp [BitVec.getLsbD_append, show ¬ l + i < b by omega, show l + i - b = l - b + i by omega]

theorem extractLsb'_self {a : Nat} (u : BitVec a) : u.extractLsb' 0 a = u := by
  refine BitVec.eq_of_getLsbD_eq fun i hi => ?_
  simp [hi]

@[simp] theorem opField_encodePair : opField (encodePair op x y n) = op := by
  simp only [opField, encodePair, extractLsb'_append_high _ _ (Nat.le_refl 4), extractLsb'_append_high _ _ (show 4 ≤ 12 by omega),
    extractLsb'_append_high _ _ (show 4 ≤ 8 by omega), Nat.reduceSub, extractLsb'_self]

@[simp] theorem xField_encodePair : xField (encodePair op x y n) = x := by
  simp only [xField, encodePair, extractLsb'_append_high _ _ (show 4 ≤ 8 by omega), extractLsb'_append_high _ _ (Nat.le_refl 4),
    Nat.reduceSub, extractLsb'_append_low]

@[simp] theorem yField_encodePair : yField (encodePair op x y n) = y := by
  simp only [yField, encodePair, extractLsb'_append_high _ _ (Nat.le_refl 4), Nat.reduceSub, extractLsb'_append_low]

@[simp] theorem nField_encodePair : nField (encodePair op x y n) = n := by
  simp only [nField, encodePair, extractLsb'_append_low]

@[simp] theorem opField_encodeByteForm : opField (encodeByteForm op x nn) = op := by
  simp only [opField, encodeByteForm, extractLsb'_append_high _ _ (show 8 ≤ 12 by omega),
    extractLsb'_append_high _ _ (Nat.le_refl 4), Nat.reduceSub, extractLsb'_self]

@[simp] theorem xField_encodeByteForm : xField (encodeByteForm op x nn) = x := by
  simp only [xField, encodeByteForm, extractLsb'_append_high _ _ (Nat.le_refl 8), Nat.reduceSub, extractLsb'_append_low]

@[simp] theorem nnField_encodeByteForm : nnField (encodeByteForm op x nn) = nn := by
  simp only [nnField, encodeByteForm, extractLsb'_append_low]

@[simp] theorem opField_encodeAddrForm : opField (encodeAddrForm op nnn) = op := by
  simp only [opField, encodeAddrForm, extractLsb'_append_high _ _ (Nat.le_refl 12), Nat.reduceSub, extractLsb'_self]

@[simp] theorem nnnField_encodeAddrForm : nnnField (encodeAddrForm op nnn) = nnn := by
  simp only [nnnField, encodeAddrForm, extractLsb'_append_low]

/-- A word is its four nibbles. -/
theorem encodePair_fields : encodePair (opField w) (xField w) (yField w) (nField w) = w := by
  refine BitVec.eq_of_getLsbD_eq fun i hi => ?_
  unfold encodePair opField xField yField nField
  simp only [BitVec.getLsbD_append, BitVec.getLsbD_extractLsb']
  interval_cases i <;> simp

/-- A word is its high nibble, its X field and its low byte. -/
theorem encodeByteForm_fields : encodeByteForm (opField w) (xField w) (nnField w) = w := by
  refine BitVec.eq_of_getLsbD_eq fun i hi => ?_
  unfold encodeByteForm opField xField nnField
  simp only [BitVec.getLsbD_append, BitVec.getLsbD_extractLsb']
  interval_cases i <;> simp

/-- A word is its high nibble and its address field. -/
theorem encodeAddrForm_fields : encodeAddrForm (opField w) (nnnField w) = w := by
  refine BitVec.eq_of_getLsbD_eq fun i hi => ?_
  unfold encodeAddrForm opField nnnField
  simp only [BitVec.getLsbD_append, BitVec.getLsbD_extractLsb']
  interval_cases i <;> simp

/-- A word's two bytes, read back in memory order, are the word (20_memory R73). -/
theorem wordOfBytes_bytes : wordOfBytes (highByte w) (lowByte w) = w := by
  refine BitVec.eq_of_getLsbD_eq fun i hi => ?_
  unfold wordOfBytes highByte lowByte
  simp only [BitVec.getLsbD_append, BitVec.getLsbD_extractLsb']
  interval_cases i <;> simp

end Sys2Proof
end

