-- ==== Sys2Proof/Laws/Memory.lean ====
section
/-! SUPPORT. Memory as plain storage: what a read gives after a write, and that every memory operation keeps the canonical form. -/

namespace Sys2Proof.Machine

@[simp] theorem Memory.read_nil (a : Nat) : Memory.read [] a = unlistedByte a := rfl

theorem Memory.read_cons (c : Host.Cell) (m : Memory) (a : Nat) :
    Memory.read (c :: m) a = if c.1 = a then c.2 else Memory.read m a := rfl

theorem Memory.read_erase_same (m : Memory) (a : Nat) :
    Memory.read (Memory.erase m a) a = unlistedByte a := by
  induction m with
  | nil => rfl
  | cons c m ih =>
    unfold Memory.erase
    split
    · exact ih
    · rename_i h; rw [Memory.read_cons, if_neg h, ih]

theorem Memory.read_erase_ne (m : Memory) {a b : Nat} (h : b ≠ a) :
    Memory.read (Memory.erase m a) b = Memory.read m b := by
  induction m with
  | nil => rfl
  | cons c m ih =>
    unfold Memory.erase
    split
    · rename_i hc; rw [ih, Memory.read_cons, if_neg (by omega)]
    · rw [Memory.read_cons, Memory.read_cons, ih]

/-- An entry put into a list that does not hold its address is the one read there. -/
theorem Memory.read_insert (m : Memory) (a b : Nat) (v : Byte) (h : ∀ c ∈ m, c.1 ≠ a) :
    Memory.read (Memory.insert m a v) b = if a = b then v else Memory.read m b := by
  induction m with
  | nil => rfl
  | cons c m ih =>
    have hc : c.1 ≠ a := h c (by simp)
    unfold Memory.insert
    split
    · rw [Memory.read_cons]
    · rw [Memory.read_cons, Memory.read_cons, ih fun d hd => h d (by simp [hd])]
      split <;> split <;> first | rfl | omega

theorem Memory.erase_ne (m : Memory) (a : Nat) : ∀ c ∈ Memory.erase m a, c.1 ≠ a := by
  induction m with
  | nil => simp [Memory.erase]
  | cons c m ih =>
    unfold Memory.erase
    split
    · exact ih
    · rename_i hc
      intro d hd
      rcases List.mem_cons.1 hd with rfl | hd
      · exact hc
      · exact ih d hd

/-- A read after a write: the byte written, at its address, and every other byte as before. -/
theorem Memory.read_write (m : Memory) (a b : Nat) (v : Byte) :
    Memory.read (Memory.write m a v) b = if a = b then v else Memory.read m b := by
  unfold Memory.write
  split
  · rename_i h
    by_cases hb : a = b
    · subst hb; rw [if_pos rfl, Memory.read_erase_same, h]
    · rw [if_neg hb, Memory.read_erase_ne _ (by omega)]
  · rw [Memory.read_insert _ _ _ _ (Memory.erase_ne m a)]
    split
    · rfl
    · rename_i hb; exact Memory.read_erase_ne _ (by omega)

@[simp] theorem Memory.read_write_same (m : Memory) (a : Nat) (v : Byte) :
    Memory.read (Memory.write m a v) a = v := by rw [Memory.read_write, if_pos rfl]

theorem Memory.read_write_ne (m : Memory) {a b : Nat} (v : Byte) (h : a ≠ b) :
    Memory.read (Memory.write m a v) b = Memory.read m b := by rw [Memory.read_write, if_neg h]

/-- A read after storing bytes from a: the byte stored, in the stored range, and every other byte as before. -/
theorem Memory.read_writeBytes (bs : List Byte) (m : Memory) (a b : Nat) :
    Memory.read (Memory.writeBytes m a bs) b =
      if a ≤ b ∧ b < a + bs.length then bs.getD (b - a) 0 else Memory.read m b := by
  induction bs generalizing m a with
  | nil => rw [Memory.writeBytes, if_neg (by simp)]
  | cons v vs ih =>
    rw [Memory.writeBytes, ih, Memory.read_write]
    by_cases hb : a = b
    · subst hb; simp
    · by_cases hr : a ≤ b ∧ b < a + (v :: vs).length
      · have hs : a + 1 ≤ b ∧ b < a + 1 + vs.length := by simp only [List.length_cons] at hr; omega
        rw [if_pos hs, if_pos hr, show b - a = (b - (a + 1)) + 1 by omega, List.getD_cons_succ]
      · have hs : ¬ (a + 1 ≤ b ∧ b < a + 1 + vs.length) := by simp only [List.length_cons] at hr; omega
        rw [if_neg hs, if_neg hr, if_neg hb]

/-- Outside the stored range every byte reads as before. -/
theorem Memory.read_writeBytes_outside (bs : List Byte) (m : Memory) {a b : Nat} (h : b < a ∨ a + bs.length ≤ b) :
    Memory.read (Memory.writeBytes m a bs) b = Memory.read m b := by
  rw [Memory.read_writeBytes, if_neg (by omega)]

@[simp] theorem Memory.readBytes_length (m : Memory) (a n : Nat) : (Memory.readBytes m a n).length = n := by
  induction n generalizing a with
  | zero => rfl
  | succ n ih => simp [Memory.readBytes, ih]

theorem Memory.readBytes_getD (m : Memory) (a n k : Nat) (h : k < n) :
    (Memory.readBytes m a n).getD k 0 = Memory.read m (a + k) := by
  induction n generalizing a k with
  | zero => omega
  | succ n ih =>
    cases k with
    | zero => rfl
    | succ k =>
      rw [Memory.readBytes, List.getD_cons_succ, ih (a + 1) k (by omega), show a + 1 + k = a + (k + 1) by omega]

/-! ### The canonical form -/

theorem Memory.wfFrom_cons {lo a : Nat} {v : Byte} {m : Memory} :
    Memory.wfFrom lo ((a, v) :: m) = true ↔
      lo ≤ a ∧ a < memSize ∧ v ≠ unlistedByte a ∧ Memory.wfFrom (a + 1) m = true := by
  simp only [Memory.wfFrom, Bool.and_eq_true, decide_eq_true_eq, bne_iff_ne, and_assoc]

theorem Memory.wfFrom_mono {lo lo' : Nat} (h : lo' ≤ lo) {m : Memory} (hm : Memory.wfFrom lo m = true) :
    Memory.wfFrom lo' m = true := by
  cases m with
  | nil => rfl
  | cons c m =>
    obtain ⟨hlo, rest⟩ := Memory.wfFrom_cons.1 hm
    exact Memory.wfFrom_cons.2 ⟨by omega, rest⟩

theorem Memory.wfFrom_erase {lo : Nat} {m : Memory} (a : Nat) (hm : Memory.wfFrom lo m = true) :
    Memory.wfFrom lo (Memory.erase m a) = true := by
  induction m generalizing lo with
  | nil => rfl
  | cons c m ih =>
    obtain ⟨hlo, hsz, hv, hm⟩ := Memory.wfFrom_cons.1 hm
    unfold Memory.erase
    split
    · exact Memory.wfFrom_mono (by omega) (ih hm)
    · exact Memory.wfFrom_cons.2 ⟨hlo, hsz, hv, ih hm⟩

theorem Memory.wfFrom_insert {lo : Nat} {m : Memory} {a : Nat} {v : Byte} (hlo : lo ≤ a) (ha : a < memSize)
    (hv : v ≠ unlistedByte a) (hne : ∀ c ∈ m, c.1 ≠ a) (hm : Memory.wfFrom lo m = true) :
    Memory.wfFrom lo (Memory.insert m a v) = true := by
  induction m generalizing lo with
  | nil => exact Memory.wfFrom_cons.2 ⟨hlo, ha, hv, rfl⟩
  | cons c m ih =>
    obtain ⟨hlo', hsz, hv', hm⟩ := Memory.wfFrom_cons.1 hm
    have hc : c.1 ≠ a := hne c (by simp)
    unfold Memory.insert
    split
    · rename_i h
      exact Memory.wfFrom_cons.2 ⟨hlo, ha, hv, Memory.wfFrom_cons.2 ⟨h, hsz, hv', hm⟩⟩
    · exact Memory.wfFrom_cons.2 ⟨hlo', hsz, hv', ih (by omega) (fun d hd => hne d (by simp [hd])) hm⟩

/-- Storing a byte inside memory keeps the canonical form. -/
theorem Memory.wf_write {m : Memory} {a : Nat} (v : Byte) (ha : a < memSize) (hm : Memory.wf m = true) :
    Memory.wf (Memory.write m a v) = true := by
  unfold Memory.write
  split
  · exact Memory.wfFrom_erase a hm
  · rename_i h
    exact Memory.wfFrom_insert (Nat.zero_le a) ha h (Memory.erase_ne m a) (Memory.wfFrom_erase a hm)

/-- Storing bytes inside memory keeps the canonical form. -/
theorem Memory.wf_writeBytes (bs : List Byte) {m : Memory} {a : Nat} (ha : a + bs.length ≤ memSize)
    (hm : Memory.wf m = true) : Memory.wf (Memory.writeBytes m a bs) = true := by
  induction bs generalizing m a with
  | nil => exact hm
  | cons v vs ih =>
    simp only [List.length_cons] at ha
    exact ih (by omega) (Memory.wf_write v (by omega) hm)

theorem State.reset_mem_wf : Memory.wf State.reset.mem = true := rfl

end Sys2Proof.Machine
end

