-- ==== Sys2Proof/Laws/Display.lean ====
section
/-! SUPPORT. The display: what a flip and a blit do to each pixel, and that a sprite touches no pixel twice (45_display R293). -/

namespace Sys2Proof.Machine

@[simp] theorem Display.pixel_clear (x y : Nat) : Display.pixel Display.clear x y = false := by
  unfold Display.pixel Display.clear
  split <;> simp

theorem Display.pixel_outside (d : Display) {x y : Nat} (h : 64 ≤ x ∨ 32 ≤ y) : Display.pixel d x y = false := by
  unfold Display.pixel
  split
  · exact BitVec.getLsbD_of_ge _ _ (by omega)
  · rfl

/-- Two displays with the same pixels are the same. -/
theorem Display.ext_pixel {d e : Display}
    (h : ∀ x y, x < 64 → y < 32 → Display.pixel d x y = Display.pixel e x y) : d = e := by
  refine Vector.ext fun y hy => BitVec.eq_of_getLsbD_eq fun x hx => ?_
  have hp := h x y hx hy
  unfold Display.pixel at hp
  rwa [dif_pos hy, dif_pos hy] at hp

/-- A flip changes its own pixel and no other. -/
theorem Display.pixel_flip (d : Display) (p : Nat × Nat) (hx : p.1 < 64) (hy : p.2 < 32) (x y : Nat) :
    Display.pixel (Display.flip d p) x y = (Display.pixel d x y ^^ decide (p = (x, y))) := by
  obtain ⟨px, py⟩ := p
  simp only at hx hy
  unfold Display.pixel Display.flip
  rw [dif_pos hy]
  by_cases h : y < 32
  · simp only [h, dif_pos]
    by_cases e : py = y
    · subst e
      simp [BitVec.getLsbD_xor, BitVec.getLsbD_twoPow, hx]
    · simp [Vector.getElem_set_ne, e]
  · simp only [h, dif_neg, not_false_eq_true]
    have : py ≠ y := by omega
    simp [this]

/-- The blit's flag: some pixel of the list was on (45_display R294). -/
theorem Display.blit_collision (ps : List (Nat × Nat)) (d : Display) (col : Bool) (hn : ps.Nodup)
    (hb : ∀ p ∈ ps, p.1 < 64 ∧ p.2 < 32) :
    (Display.blit d col ps).2 = (col || ps.any fun p => Display.pixel d p.1 p.2) := by
  induction ps generalizing d col with
  | nil => simp [Display.blit]
  | cons p ps ih =>
    obtain ⟨hp, hn⟩ := List.nodup_cons.1 hn
    have hpb := hb p (by simp)
    rw [Display.blit, ih _ _ hn fun q hq => hb q (by simp [hq]), List.any_cons, Bool.or_assoc]
    have hany : (ps.any fun q => Display.pixel (Display.flip d p) q.1 q.2) =
        ps.any fun q => Display.pixel d q.1 q.2 := by
      refine Bool.eq_iff_iff.2 ?_
      simp only [List.any_eq_true]
      refine exists_congr fun q => and_congr_right fun hq => ?_
      have : p ≠ (q.1, q.2) := fun e => hp (e ▸ hq)
      simp [Display.pixel_flip d p hpb.1 hpb.2, this]
    rw [hany]

/-- The blit's pixels: each pixel of the list is flipped once, every other is as before (45_display R292). -/
theorem Display.blit_pixel (ps : List (Nat × Nat)) (d : Display) (col : Bool) (hn : ps.Nodup)
    (hb : ∀ p ∈ ps, p.1 < 64 ∧ p.2 < 32) (x y : Nat) :
    Display.pixel (Display.blit d col ps).1 x y = (Display.pixel d x y ^^ decide ((x, y) ∈ ps)) := by
  induction ps generalizing d col with
  | nil => simp [Display.blit]
  | cons p ps ih =>
    obtain ⟨hp, hn⟩ := List.nodup_cons.1 hn
    have hpb := hb p (by simp)
    rw [Display.blit, ih _ _ hn fun q hq => hb q (by simp [hq]), Display.pixel_flip d p hpb.1 hpb.2]
    by_cases e : p = (x, y)
    · subst e; simp [hp]
    · have : (x, y) ≠ p := fun h => e h.symm
      simp [e, this]

theorem mem_spriteRowPixels (b : Byte) (x0 y0 r : Nat) (p : Nat × Nat) :
    p ∈ spriteRowPixels b x0 y0 r ↔
      ∃ c, c < 8 ∧ b.getLsbD (7 - c) = true ∧ p = ((x0 + c) % 64, (y0 + r) % 32) := by
  simp only [spriteRowPixels, List.mem_map, List.mem_filter, List.mem_range, and_assoc, eq_comm]

/-- The pixels of a sprite (45_display R292): one for each set bit, at the wrapped position. -/
theorem mem_spritePixels (bs : List Byte) (x0 y0 : Nat) (p : Nat × Nat) :
    p ∈ spritePixels bs x0 y0 ↔
      ∃ r c, r < bs.length ∧ c < 8 ∧ (bs.getD r 0).getLsbD (7 - c) = true ∧
        p = ((x0 + c) % 64, (y0 + r) % 32) := by
  simp only [spritePixels, List.mem_flatMap, List.mem_range, mem_spriteRowPixels]
  constructor
  · rintro ⟨r, hr, c, hc, hb, rfl⟩; exact ⟨r, c, hr, hc, hb, rfl⟩
  · rintro ⟨r, c, hr, hc, hb, rfl⟩; exact ⟨r, hr, c, hc, hb, rfl⟩

theorem spritePixels_bounds (bs : List Byte) (x0 y0 : Nat) :
    ∀ p ∈ spritePixels bs x0 y0, p.1 < 64 ∧ p.2 < 32 := by
  intro p hp
  obtain ⟨r, c, -, -, -, rfl⟩ := (mem_spritePixels bs x0 y0 p).1 hp
  exact ⟨Nat.mod_lt _ (by omega), Nat.mod_lt _ (by omega)⟩

theorem nodup_spriteRowPixels (b : Byte) (x0 y0 r : Nat) : (spriteRowPixels b x0 y0 r).Nodup := by
  refine List.Nodup.map_on ?_ (List.Nodup.filter _ List.nodup_range)
  intro c hc c' hc' h
  simp only [List.mem_filter, List.mem_range] at hc hc'
  simp only [Prod.mk.injEq] at h
  omega

/-- A sprite of at most 32 rows touches no pixel twice (45_display R293). -/
theorem nodup_spritePixels (bs : List Byte) (x0 y0 : Nat) (h : bs.length ≤ 32) :
    (spritePixels bs x0 y0).Nodup := by
  refine List.nodup_flatMap.2 ⟨fun r _ => nodup_spriteRowPixels _ _ _ _, ?_⟩
  refine List.Pairwise.imp_of_mem ?_ (List.pairwise_lt_range (n := bs.length))
  intro r r' hr hr' hlt
  simp only [List.mem_range] at hr hr'
  intro p hp hp'
  obtain ⟨c, -, -, e⟩ := (mem_spriteRowPixels _ _ _ _ _).1 hp
  obtain ⟨c', -, -, e'⟩ := (mem_spriteRowPixels _ _ _ _ _).1 hp'
  rw [e] at e'
  simp only [Prod.mk.injEq] at e'
  omega

/-- The pixels of a DRW are as many as its rows allow, none of them twice. -/
theorem State.nodup_drawPixels (s : State) (x y n : Nibble) : (s.drawPixels x y n).Nodup := by
  have := n.isLt
  exact nodup_spritePixels _ _ _ (by rw [Memory.readBytes_length]; omega)

end Sys2Proof.Machine
end

