-- ==== Sys2Proof/Laws/Frame.lean ====
section
/-! SUPPORT. The frame vocabulary of Safety: which bytes and registers the listed ranges hold. -/

namespace Sys2Proof.Machine

theorem byte_mem_bytesFrom {a n b : Nat} : Part.byte b ∈ bytesFrom a n ↔ a ≤ b ∧ b < a + n := by
  simp only [bytesFrom, List.mem_map, List.mem_range, Part.byte.injEq]
  constructor
  · rintro ⟨k, hk, rfl⟩; omega
  · intro h; exact ⟨b - a, by omega, by omega⟩

theorem not_mem_bytesFrom {a n : Nat} {p : Part} (h : ∀ b, p ≠ .byte b) : p ∉ bytesFrom a n := by
  simp only [bytesFrom, List.mem_map, not_exists, not_and]
  exact fun k _ e => h _ e.symm

theorem reg_mem_regsThrough {x r : Nibble} : Part.reg r ∈ regsThrough x ↔ r.toNat ≤ x.toNat := by
  simp only [regsThrough, List.mem_map, List.mem_range, Part.reg.injEq]
  constructor
  · rintro ⟨k, hk, rfl⟩; have := x.isLt; rw [BitVec.toNat_ofNat]; omega
  · intro h; exact ⟨r.toNat, by omega, by simp⟩

theorem changesOnly_refl (parts : List Part) (s : State) : changesOnly parts s s := by
  intro p _; cases p <;> simp [Part.same]

/-- Two frames in a row: what changes is what either allows. -/
theorem changesOnly_trans {ps qs : List Part} {s t u : State} (h : changesOnly ps s t) (h' : changesOnly qs t u) :
    changesOnly (ps ++ qs) s u := by
  intro p hp
  simp only [List.mem_append, not_or] at hp
  have h1 := h p hp.1
  have h2 := h' p hp.2
  cases p <;> simp_all [Part.same]

/-- A raised error is a halt with its record and nothing else (60_exceptions R340). -/
theorem haltedWith_raise (s : State) (k : ErrorKind) (o : Option Word) (a : Option Nat) :
    haltedWith k o a s (s.raise k o a) := by
  refine ⟨?_, rfl, rfl, rfl⟩
  intro p hp
  cases p <;> first | rfl | (simp at hp; done) | exact ⟨rfl, rfl⟩

theorem haltedWith_raiseBy (s : State) (i : Instr) (k : ErrorKind) (a : Option Nat) :
    haltedWith k (some (encode i)) a s (s.raiseBy i k a) := haltedWith_raise s k _ a

end Sys2Proof.Machine
end

