-- ==== Sys2Proof/Laws/Operands.lean ====
section
/-! SUPPORT. The operand forms: when a range check passes, what it reports, and the key and mask searches. -/

namespace Sys2Proof.Machine

/-- A range check passes for an empty range and for one that ends inside memory (20_memory R75). -/
theorem lowestOob_eq_none {b n : Nat} : lowestOob b n = none ↔ n = 0 ∨ b + n ≤ memSize := by
  unfold lowestOob; split <;> simp_all

/-- A failed range check reports max(b, 0x1000) (44_index_memory R268). -/
theorem lowestOob_eq_some {b n a : Nat} :
    lowestOob b n = some a ↔ n ≠ 0 ∧ memSize < b + n ∧ a = max b memSize := by
  unfold lowestOob
  split
  · rename_i h; simp only [reduceCtorEq, false_iff]; omega
  · rename_i h; simp only [Option.some.injEq]; omega

/-- The reported address is the lowest one of the range that is above 0xFFF (44_index_memory R268). -/
theorem lowestOob_lowest {b n a : Nat} (h : lowestOob b n = some a) :
    (b ≤ a ∧ a < b + n ∧ memSize ≤ a) ∧ ∀ c, b ≤ c → memSize ≤ c → a ≤ c := by
  obtain ⟨h0, h1, rfl⟩ := lowestOob_eq_some.1 h
  exact ⟨by omega, fun c hb hm => by omega⟩

theorem keyIndex_of_le (p : KeyIndexPolicy) {b : Byte} (h : b.toNat ≤ 15) :
    keyIndex p b = some (b.setWidth 4) := by unfold keyIndex; rw [if_pos h]

theorem keyIndex_fault {b : Byte} (h : 15 < b.toNat) : keyIndex .fault b = none := by
  unfold keyIndex; rw [if_neg (by omega)]

@[simp] theorem keyIndex_lowNibble (b : Byte) : keyIndex .lowNibble b = some (b.setWidth 4) := by
  unfold keyIndex; split <;> rfl

/-- The lowest key of a mask (46_timers_keys R315): its bit is set, and no lower one is. -/
theorem lowestKey_eq_some {m : Word} {k : Nat} :
    lowestKey m = some k ↔ k < 16 ∧ m.getLsbD k = true ∧ ∀ j, j < k → m.getLsbD j = false := by
  unfold lowestKey
  rw [List.find?_range_eq_some]
  simp only [Bool.not_eq_true', and_left_comm, List.mem_range]

/-- A mask has no lowest key where it is empty. -/
theorem lowestKey_eq_none {m : Word} : lowestKey m = none ↔ m = 0 := by
  unfold lowestKey
  simp only [List.find?_eq_none, List.mem_range, Bool.not_eq_true]
  constructor
  · intro h; exact BitVec.eq_of_getLsbD_eq fun i hi => by simpa using h i hi
  · rintro rfl k _; simp

theorem addrOperand_toNat (nnn : Addr12) : (addrOperand nnn).toNat = nnn.toNat := by
  have := nnn.isLt
  simp [addrOperand, BitVec.toNat_setWidth]; omega

end Sys2Proof.Machine
end

