-- ==== Sys2Proof/Laws/PerInstr.lean ====
section
/-! SUPPORT. Per-instruction statements about the syntax. Family EncodingRow: the word that the encoder gives an instruction matches the mask and the match value of the instruction's row of spec/opcode_table.json. -/

namespace Sys2Proof.Laws.EncodingRow

/-- The mask and the match value of the instruction's row, copied from spec/opcode_table.json. -/
def row : Instr → Word × Word
  | .sys _ => (0xF000, 0x0000)
  | .cls => (0xFFFF, 0x00E0)
  | .ret => (0xFFFF, 0x00EE)
  | .jp _ => (0xF000, 0x1000)
  | .call _ => (0xF000, 0x2000)
  | .seVxByte _ _ => (0xF000, 0x3000)
  | .sneVxByte _ _ => (0xF000, 0x4000)
  | .seVxVy _ _ => (0xF00F, 0x5000)
  | .ldVxByte _ _ => (0xF000, 0x6000)
  | .addVxByte _ _ => (0xF000, 0x7000)
  | .ldVxVy _ _ => (0xF00F, 0x8000)
  | .orVxVy _ _ => (0xF00F, 0x8001)
  | .andVxVy _ _ => (0xF00F, 0x8002)
  | .xorVxVy _ _ => (0xF00F, 0x8003)
  | .addVxVy _ _ => (0xF00F, 0x8004)
  | .subVxVy _ _ => (0xF00F, 0x8005)
  | .shrVxVy _ _ => (0xF00F, 0x8006)
  | .subnVxVy _ _ => (0xF00F, 0x8007)
  | .shlVxVy _ _ => (0xF00F, 0x800E)
  | .sneVxVy _ _ => (0xF00F, 0x9000)
  | .ldIAddr _ => (0xF000, 0xA000)
  | .jpV0Addr _ => (0xF000, 0xB000)
  | .rndVxByte _ _ => (0xF000, 0xC000)
  | .drwVxVyN _ _ _ => (0xF000, 0xD000)
  | .skpVx _ => (0xF0FF, 0xE09E)
  | .sknpVx _ => (0xF0FF, 0xE0A1)
  | .ldVxDt _ => (0xF0FF, 0xF007)
  | .ldVxK _ => (0xF0FF, 0xF00A)
  | .ldDtVx _ => (0xF0FF, 0xF015)
  | .ldStVx _ => (0xF0FF, 0xF018)
  | .addIVx _ => (0xF0FF, 0xF01E)
  | .ldFVx _ => (0xF0FF, 0xF029)
  | .ldBVx _ => (0xF0FF, 0xF033)
  | .ldMemVx _ => (0xF0FF, 0xF055)
  | .ldVxMem _ => (0xF0FF, 0xF065)

/-- The encoded word matches the instruction's row. -/
def Statement (i : Instr) : Prop := encode i &&& (row i).1 = (row i).2

theorem and_fullNibble (n : Nibble) : n &&& (0xF : Nibble) = n := BitVec.and_allOnes

theorem and_fullByte (b : Byte) : b &&& (0xFF : Byte) = b := BitVec.and_allOnes

theorem addrForm_row {op : Nibble} {m : Word} (nnn : Addr12) (h : op ++ (0 : Addr12) = m) :
    encodeAddrForm op nnn &&& 0xF000 = m := by
  subst h
  rw [encodeAddrForm, show (0xF000 : Word) = (0xF : Nibble) ++ (0 : Addr12) from rfl, BitVec.and_append,
    and_fullNibble, show (0 : Addr12) = 0#12 from rfl, BitVec.and_zero]

theorem byteForm_row {op : Nibble} {m : Word} (x : Nibble) (nn : Byte)
    (h : op ++ (0 : Nibble) ++ (0 : Byte) = m) : encodeByteForm op x nn &&& 0xF000 = m := by
  subst h
  rw [encodeByteForm, show (0xF000 : Word) = (0xF : Nibble) ++ (0 : Nibble) ++ (0 : Byte) from rfl,
    BitVec.and_append, BitVec.and_append, and_fullNibble, show (0 : Byte) = 0#8 from rfl,
    show (0 : Nibble) = 0#4 from rfl, BitVec.and_zero, BitVec.and_zero]

theorem byteRow {op : Nibble} {nn : Byte} {m : Word} (x : Nibble)
    (h : op ++ (0 : Nibble) ++ nn = m) : encodeByteForm op x nn &&& 0xF0FF = m := by
  subst h
  rw [encodeByteForm, show (0xF0FF : Word) = (0xF : Nibble) ++ (0 : Nibble) ++ (0xFF : Byte) from rfl,
    BitVec.and_append, BitVec.and_append, and_fullNibble, and_fullByte,
    show (0 : Nibble) = 0#4 from rfl, BitVec.and_zero]

theorem pairForm_row {op : Nibble} {m : Word} (x y n : Nibble)
    (h : op ++ (0 : Nibble) ++ (0 : Nibble) ++ (0 : Nibble) = m) : encodePair op x y n &&& 0xF000 = m := by
  subst h
  rw [encodePair, show (0xF000 : Word) = (0xF : Nibble) ++ (0 : Nibble) ++ (0 : Nibble) ++ (0 : Nibble) from rfl,
    BitVec.and_append, BitVec.and_append, BitVec.and_append, and_fullNibble,
    show (0 : Nibble) = 0#4 from rfl, BitVec.and_zero, BitVec.and_zero, BitVec.and_zero]

theorem pairRow {op n : Nibble} {m : Word} (x y : Nibble)
    (h : op ++ (0 : Nibble) ++ (0 : Nibble) ++ n = m) : encodePair op x y n &&& 0xF00F = m := by
  subst h
  rw [encodePair, show (0xF00F : Word) = (0xF : Nibble) ++ (0 : Nibble) ++ (0 : Nibble) ++ (0xF : Nibble) from rfl,
    BitVec.and_append, BitVec.and_append, BitVec.and_append, and_fullNibble, and_fullNibble,
    show (0 : Nibble) = 0#4 from rfl, BitVec.and_zero, BitVec.and_zero]

theorem sys (nnn : Addr12) : Statement (.sys nnn) := addrForm_row nnn rfl
theorem cls : Statement .cls := rfl
theorem ret : Statement .ret := rfl
theorem jp (nnn : Addr12) : Statement (.jp nnn) := addrForm_row nnn rfl
theorem call (nnn : Addr12) : Statement (.call nnn) := addrForm_row nnn rfl
theorem seVxByte (x : Nibble) (nn : Byte) : Statement (.seVxByte x nn) := byteForm_row x nn rfl
theorem sneVxByte (x : Nibble) (nn : Byte) : Statement (.sneVxByte x nn) := byteForm_row x nn rfl
theorem seVxVy (x y : Nibble) : Statement (.seVxVy x y) := pairRow x y rfl
theorem ldVxByte (x : Nibble) (nn : Byte) : Statement (.ldVxByte x nn) := byteForm_row x nn rfl
theorem addVxByte (x : Nibble) (nn : Byte) : Statement (.addVxByte x nn) := byteForm_row x nn rfl
theorem ldVxVy (x y : Nibble) : Statement (.ldVxVy x y) := pairRow x y rfl
theorem orVxVy (x y : Nibble) : Statement (.orVxVy x y) := pairRow x y rfl
theorem andVxVy (x y : Nibble) : Statement (.andVxVy x y) := pairRow x y rfl
theorem xorVxVy (x y : Nibble) : Statement (.xorVxVy x y) := pairRow x y rfl
theorem addVxVy (x y : Nibble) : Statement (.addVxVy x y) := pairRow x y rfl
theorem subVxVy (x y : Nibble) : Statement (.subVxVy x y) := pairRow x y rfl
theorem shrVxVy (x y : Nibble) : Statement (.shrVxVy x y) := pairRow x y rfl
theorem subnVxVy (x y : Nibble) : Statement (.subnVxVy x y) := pairRow x y rfl
theorem shlVxVy (x y : Nibble) : Statement (.shlVxVy x y) := pairRow x y rfl
theorem sneVxVy (x y : Nibble) : Statement (.sneVxVy x y) := pairRow x y rfl
theorem ldIAddr (nnn : Addr12) : Statement (.ldIAddr nnn) := addrForm_row nnn rfl
theorem jpV0Addr (nnn : Addr12) : Statement (.jpV0Addr nnn) := addrForm_row nnn rfl
theorem rndVxByte (x : Nibble) (nn : Byte) : Statement (.rndVxByte x nn) := byteForm_row x nn rfl
theorem drwVxVyN (x y n : Nibble) : Statement (.drwVxVyN x y n) := pairForm_row x y n rfl
theorem skpVx (x : Nibble) : Statement (.skpVx x) := byteRow x rfl
theorem sknpVx (x : Nibble) : Statement (.sknpVx x) := byteRow x rfl
theorem ldVxDt (x : Nibble) : Statement (.ldVxDt x) := byteRow x rfl
theorem ldVxK (x : Nibble) : Statement (.ldVxK x) := byteRow x rfl
theorem ldDtVx (x : Nibble) : Statement (.ldDtVx x) := byteRow x rfl
theorem ldStVx (x : Nibble) : Statement (.ldStVx x) := byteRow x rfl
theorem addIVx (x : Nibble) : Statement (.addIVx x) := byteRow x rfl
theorem ldFVx (x : Nibble) : Statement (.ldFVx x) := byteRow x rfl
theorem ldBVx (x : Nibble) : Statement (.ldBVx x) := byteRow x rfl
theorem ldMemVx (x : Nibble) : Statement (.ldMemVx x) := byteRow x rfl
theorem ldVxMem (x : Nibble) : Statement (.ldVxMem x) := byteRow x rfl

end Sys2Proof.Laws.EncodingRow
end

