-- ==== Sys2Proof/Laws/State.lean ====
section
/-! SUPPORT. What each named operation on the state does to each field: one lemma per operation and field, so that no later proof unfolds a record update. -/

namespace Sys2Proof.Machine

variable (s : State)

/-! ### setReg -/

@[simp] theorem State.setReg_v (x : Nibble) (b : Byte) : (s.setReg x b).v = s.v.set x.toNat b := rfl
@[simp] theorem State.setReg_i (x : Nibble) (b : Byte) : (s.setReg x b).i = s.i := rfl
@[simp] theorem State.setReg_pc (x : Nibble) (b : Byte) : (s.setReg x b).pc = s.pc := rfl
@[simp] theorem State.setReg_stack (x : Nibble) (b : Byte) : (s.setReg x b).stack = s.stack := rfl
@[simp] theorem State.setReg_sp (x : Nibble) (b : Byte) : (s.setReg x b).sp = s.sp := rfl
@[simp] theorem State.setReg_dt (x : Nibble) (b : Byte) : (s.setReg x b).dt = s.dt := rfl
@[simp] theorem State.setReg_st (x : Nibble) (b : Byte) : (s.setReg x b).st = s.st := rfl
@[simp] theorem State.setReg_display (x : Nibble) (b : Byte) : (s.setReg x b).display = s.display := rfl
@[simp] theorem State.setReg_key (x : Nibble) (b : Byte) : (s.setReg x b).key = s.key := rfl
@[simp] theorem State.setReg_mem (x : Nibble) (b : Byte) : (s.setReg x b).mem = s.mem := rfl
@[simp] theorem State.setReg_runState (x : Nibble) (b : Byte) : (s.setReg x b).runState = s.runState := rfl
@[simp] theorem State.setReg_err (x : Nibble) (b : Byte) : (s.setReg x b).err = s.err := rfl
@[simp] theorem State.setReg_kwSnap (x : Nibble) (b : Byte) : (s.setReg x b).kwSnap = s.kwSnap := rfl
@[simp] theorem State.setReg_events (x : Nibble) (b : Byte) : (s.setReg x b).events = s.events := rfl
@[simp] theorem State.setReg_params (x : Nibble) (b : Byte) : (s.setReg x b).params = s.params := rfl
@[simp] theorem State.setReg_agenda (x : Nibble) (b : Byte) : (s.setReg x b).agenda = s.agenda := rfl
@[simp] theorem State.setReg_schedule (x : Nibble) (b : Byte) : (s.setReg x b).schedule = s.schedule := rfl
@[simp] theorem State.setReg_randFeed (x : Nibble) (b : Byte) : (s.setReg x b).randFeed = s.randFeed := rfl
@[simp] theorem State.setReg_draws (x : Nibble) (b : Byte) : (s.setReg x b).draws = s.draws := rfl
@[simp] theorem State.setReg_loadOpen (x : Nibble) (b : Byte) : (s.setReg x b).loadOpen = s.loadOpen := rfl

/-! ### setRegFlag -/

@[simp] theorem State.setRegFlag_v (x : Nibble) (b f : Byte) : (s.setRegFlag x b f).v = (s.v.set x.toNat b).set flagReg.toNat f := rfl
@[simp] theorem State.setRegFlag_i (x : Nibble) (b f : Byte) : (s.setRegFlag x b f).i = s.i := rfl
@[simp] theorem State.setRegFlag_pc (x : Nibble) (b f : Byte) : (s.setRegFlag x b f).pc = s.pc := rfl
@[simp] theorem State.setRegFlag_stack (x : Nibble) (b f : Byte) : (s.setRegFlag x b f).stack = s.stack := rfl
@[simp] theorem State.setRegFlag_sp (x : Nibble) (b f : Byte) : (s.setRegFlag x b f).sp = s.sp := rfl
@[simp] theorem State.setRegFlag_dt (x : Nibble) (b f : Byte) : (s.setRegFlag x b f).dt = s.dt := rfl
@[simp] theorem State.setRegFlag_st (x : Nibble) (b f : Byte) : (s.setRegFlag x b f).st = s.st := rfl
@[simp] theorem State.setRegFlag_display (x : Nibble) (b f : Byte) : (s.setRegFlag x b f).display = s.display := rfl
@[simp] theorem State.setRegFlag_key (x : Nibble) (b f : Byte) : (s.setRegFlag x b f).key = s.key := rfl
@[simp] theorem State.setRegFlag_mem (x : Nibble) (b f : Byte) : (s.setRegFlag x b f).mem = s.mem := rfl
@[simp] theorem State.setRegFlag_runState (x : Nibble) (b f : Byte) : (s.setRegFlag x b f).runState = s.runState := rfl
@[simp] theorem State.setRegFlag_err (x : Nibble) (b f : Byte) : (s.setRegFlag x b f).err = s.err := rfl
@[simp] theorem State.setRegFlag_kwSnap (x : Nibble) (b f : Byte) : (s.setRegFlag x b f).kwSnap = s.kwSnap := rfl
@[simp] theorem State.setRegFlag_events (x : Nibble) (b f : Byte) : (s.setRegFlag x b f).events = s.events := rfl
@[simp] theorem State.setRegFlag_params (x : Nibble) (b f : Byte) : (s.setRegFlag x b f).params = s.params := rfl
@[simp] theorem State.setRegFlag_agenda (x : Nibble) (b f : Byte) : (s.setRegFlag x b f).agenda = s.agenda := rfl
@[simp] theorem State.setRegFlag_schedule (x : Nibble) (b f : Byte) : (s.setRegFlag x b f).schedule = s.schedule := rfl
@[simp] theorem State.setRegFlag_randFeed (x : Nibble) (b f : Byte) : (s.setRegFlag x b f).randFeed = s.randFeed := rfl
@[simp] theorem State.setRegFlag_draws (x : Nibble) (b f : Byte) : (s.setRegFlag x b f).draws = s.draws := rfl
@[simp] theorem State.setRegFlag_loadOpen (x : Nibble) (b f : Byte) : (s.setRegFlag x b f).loadOpen = s.loadOpen := rfl

/-! ### setI -/

@[simp] theorem State.setI_v (w : Word) : (s.setI w).v = s.v := rfl
@[simp] theorem State.setI_i (w : Word) : (s.setI w).i = w := rfl
@[simp] theorem State.setI_pc (w : Word) : (s.setI w).pc = s.pc := rfl
@[simp] theorem State.setI_stack (w : Word) : (s.setI w).stack = s.stack := rfl
@[simp] theorem State.setI_sp (w : Word) : (s.setI w).sp = s.sp := rfl
@[simp] theorem State.setI_dt (w : Word) : (s.setI w).dt = s.dt := rfl
@[simp] theorem State.setI_st (w : Word) : (s.setI w).st = s.st := rfl
@[simp] theorem State.setI_display (w : Word) : (s.setI w).display = s.display := rfl
@[simp] theorem State.setI_key (w : Word) : (s.setI w).key = s.key := rfl
@[simp] theorem State.setI_mem (w : Word) : (s.setI w).mem = s.mem := rfl
@[simp] theorem State.setI_runState (w : Word) : (s.setI w).runState = s.runState := rfl
@[simp] theorem State.setI_err (w : Word) : (s.setI w).err = s.err := rfl
@[simp] theorem State.setI_kwSnap (w : Word) : (s.setI w).kwSnap = s.kwSnap := rfl
@[simp] theorem State.setI_events (w : Word) : (s.setI w).events = s.events := rfl
@[simp] theorem State.setI_params (w : Word) : (s.setI w).params = s.params := rfl
@[simp] theorem State.setI_agenda (w : Word) : (s.setI w).agenda = s.agenda := rfl
@[simp] theorem State.setI_schedule (w : Word) : (s.setI w).schedule = s.schedule := rfl
@[simp] theorem State.setI_randFeed (w : Word) : (s.setI w).randFeed = s.randFeed := rfl
@[simp] theorem State.setI_draws (w : Word) : (s.setI w).draws = s.draws := rfl
@[simp] theorem State.setI_loadOpen (w : Word) : (s.setI w).loadOpen = s.loadOpen := rfl
@[simp] theorem State.setI_reg (w : Word) (r : Nibble) : (s.setI w).reg r = s.reg r := rfl

/-! ### setPc -/

@[simp] theorem State.setPc_v (w : Word) : (s.setPc w).v = s.v := rfl
@[simp] theorem State.setPc_i (w : Word) : (s.setPc w).i = s.i := rfl
@[simp] theorem State.setPc_pc (w : Word) : (s.setPc w).pc = w := rfl
@[simp] theorem State.setPc_stack (w : Word) : (s.setPc w).stack = s.stack := rfl
@[simp] theorem State.setPc_sp (w : Word) : (s.setPc w).sp = s.sp := rfl
@[simp] theorem State.setPc_dt (w : Word) : (s.setPc w).dt = s.dt := rfl
@[simp] theorem State.setPc_st (w : Word) : (s.setPc w).st = s.st := rfl
@[simp] theorem State.setPc_display (w : Word) : (s.setPc w).display = s.display := rfl
@[simp] theorem State.setPc_key (w : Word) : (s.setPc w).key = s.key := rfl
@[simp] theorem State.setPc_mem (w : Word) : (s.setPc w).mem = s.mem := rfl
@[simp] theorem State.setPc_runState (w : Word) : (s.setPc w).runState = s.runState := rfl
@[simp] theorem State.setPc_err (w : Word) : (s.setPc w).err = s.err := rfl
@[simp] theorem State.setPc_kwSnap (w : Word) : (s.setPc w).kwSnap = s.kwSnap := rfl
@[simp] theorem State.setPc_events (w : Word) : (s.setPc w).events = s.events := rfl
@[simp] theorem State.setPc_params (w : Word) : (s.setPc w).params = s.params := rfl
@[simp] theorem State.setPc_agenda (w : Word) : (s.setPc w).agenda = s.agenda := rfl
@[simp] theorem State.setPc_schedule (w : Word) : (s.setPc w).schedule = s.schedule := rfl
@[simp] theorem State.setPc_randFeed (w : Word) : (s.setPc w).randFeed = s.randFeed := rfl
@[simp] theorem State.setPc_draws (w : Word) : (s.setPc w).draws = s.draws := rfl
@[simp] theorem State.setPc_loadOpen (w : Word) : (s.setPc w).loadOpen = s.loadOpen := rfl
@[simp] theorem State.setPc_reg (w : Word) (r : Nibble) : (s.setPc w).reg r = s.reg r := rfl

/-! ### setDt -/

@[simp] theorem State.setDt_v (b : Byte) : (s.setDt b).v = s.v := rfl
@[simp] theorem State.setDt_i (b : Byte) : (s.setDt b).i = s.i := rfl
@[simp] theorem State.setDt_pc (b : Byte) : (s.setDt b).pc = s.pc := rfl
@[simp] theorem State.setDt_stack (b : Byte) : (s.setDt b).stack = s.stack := rfl
@[simp] theorem State.setDt_sp (b : Byte) : (s.setDt b).sp = s.sp := rfl
@[simp] theorem State.setDt_dt (b : Byte) : (s.setDt b).dt = b := rfl
@[simp] theorem State.setDt_st (b : Byte) : (s.setDt b).st = s.st := rfl
@[simp] theorem State.setDt_display (b : Byte) : (s.setDt b).display = s.display := rfl
@[simp] theorem State.setDt_key (b : Byte) : (s.setDt b).key = s.key := rfl
@[simp] theorem State.setDt_mem (b : Byte) : (s.setDt b).mem = s.mem := rfl
@[simp] theorem State.setDt_runState (b : Byte) : (s.setDt b).runState = s.runState := rfl
@[simp] theorem State.setDt_err (b : Byte) : (s.setDt b).err = s.err := rfl
@[simp] theorem State.setDt_kwSnap (b : Byte) : (s.setDt b).kwSnap = s.kwSnap := rfl
@[simp] theorem State.setDt_events (b : Byte) : (s.setDt b).events = s.events := rfl
@[simp] theorem State.setDt_params (b : Byte) : (s.setDt b).params = s.params := rfl
@[simp] theorem State.setDt_agenda (b : Byte) : (s.setDt b).agenda = s.agenda := rfl
@[simp] theorem State.setDt_schedule (b : Byte) : (s.setDt b).schedule = s.schedule := rfl
@[simp] theorem State.setDt_randFeed (b : Byte) : (s.setDt b).randFeed = s.randFeed := rfl
@[simp] theorem State.setDt_draws (b : Byte) : (s.setDt b).draws = s.draws := rfl
@[simp] theorem State.setDt_loadOpen (b : Byte) : (s.setDt b).loadOpen = s.loadOpen := rfl
@[simp] theorem State.setDt_reg (b : Byte) (r : Nibble) : (s.setDt b).reg r = s.reg r := rfl

/-! ### setSt -/

@[simp] theorem State.setSt_v (b : Byte) : (s.setSt b).v = s.v := rfl
@[simp] theorem State.setSt_i (b : Byte) : (s.setSt b).i = s.i := rfl
@[simp] theorem State.setSt_pc (b : Byte) : (s.setSt b).pc = s.pc := rfl
@[simp] theorem State.setSt_stack (b : Byte) : (s.setSt b).stack = s.stack := rfl
@[simp] theorem State.setSt_sp (b : Byte) : (s.setSt b).sp = s.sp := rfl
@[simp] theorem State.setSt_dt (b : Byte) : (s.setSt b).dt = s.dt := rfl
@[simp] theorem State.setSt_st (b : Byte) : (s.setSt b).st = b := rfl
@[simp] theorem State.setSt_display (b : Byte) : (s.setSt b).display = s.display := rfl
@[simp] theorem State.setSt_key (b : Byte) : (s.setSt b).key = s.key := rfl
@[simp] theorem State.setSt_mem (b : Byte) : (s.setSt b).mem = s.mem := rfl
@[simp] theorem State.setSt_runState (b : Byte) : (s.setSt b).runState = s.runState := rfl
@[simp] theorem State.setSt_err (b : Byte) : (s.setSt b).err = s.err := rfl
@[simp] theorem State.setSt_kwSnap (b : Byte) : (s.setSt b).kwSnap = s.kwSnap := rfl
@[simp] theorem State.setSt_events (b : Byte) : (s.setSt b).events = s.events := rfl
@[simp] theorem State.setSt_params (b : Byte) : (s.setSt b).params = s.params := rfl
@[simp] theorem State.setSt_agenda (b : Byte) : (s.setSt b).agenda = s.agenda := rfl
@[simp] theorem State.setSt_schedule (b : Byte) : (s.setSt b).schedule = s.schedule := rfl
@[simp] theorem State.setSt_randFeed (b : Byte) : (s.setSt b).randFeed = s.randFeed := rfl
@[simp] theorem State.setSt_draws (b : Byte) : (s.setSt b).draws = s.draws := rfl
@[simp] theorem State.setSt_loadOpen (b : Byte) : (s.setSt b).loadOpen = s.loadOpen := rfl
@[simp] theorem State.setSt_reg (b : Byte) (r : Nibble) : (s.setSt b).reg r = s.reg r := rfl

/-! ### setDisplay -/

@[simp] theorem State.setDisplay_v (d : Display) : (s.setDisplay d).v = s.v := rfl
@[simp] theorem State.setDisplay_i (d : Display) : (s.setDisplay d).i = s.i := rfl
@[simp] theorem State.setDisplay_pc (d : Display) : (s.setDisplay d).pc = s.pc := rfl
@[simp] theorem State.setDisplay_stack (d : Display) : (s.setDisplay d).stack = s.stack := rfl
@[simp] theorem State.setDisplay_sp (d : Display) : (s.setDisplay d).sp = s.sp := rfl
@[simp] theorem State.setDisplay_dt (d : Display) : (s.setDisplay d).dt = s.dt := rfl
@[simp] theorem State.setDisplay_st (d : Display) : (s.setDisplay d).st = s.st := rfl
@[simp] theorem State.setDisplay_display (d : Display) : (s.setDisplay d).display = d := rfl
@[simp] theorem State.setDisplay_key (d : Display) : (s.setDisplay d).key = s.key := rfl
@[simp] theorem State.setDisplay_mem (d : Display) : (s.setDisplay d).mem = s.mem := rfl
@[simp] theorem State.setDisplay_runState (d : Display) : (s.setDisplay d).runState = s.runState := rfl
@[simp] theorem State.setDisplay_err (d : Display) : (s.setDisplay d).err = s.err := rfl
@[simp] theorem State.setDisplay_kwSnap (d : Display) : (s.setDisplay d).kwSnap = s.kwSnap := rfl
@[simp] theorem State.setDisplay_events (d : Display) : (s.setDisplay d).events = s.events := rfl
@[simp] theorem State.setDisplay_params (d : Display) : (s.setDisplay d).params = s.params := rfl
@[simp] theorem State.setDisplay_agenda (d : Display) : (s.setDisplay d).agenda = s.agenda := rfl
@[simp] theorem State.setDisplay_schedule (d : Display) : (s.setDisplay d).schedule = s.schedule := rfl
@[simp] theorem State.setDisplay_randFeed (d : Display) : (s.setDisplay d).randFeed = s.randFeed := rfl
@[simp] theorem State.setDisplay_draws (d : Display) : (s.setDisplay d).draws = s.draws := rfl
@[simp] theorem State.setDisplay_loadOpen (d : Display) : (s.setDisplay d).loadOpen = s.loadOpen := rfl
@[simp] theorem State.setDisplay_reg (d : Display) (r : Nibble) : (s.setDisplay d).reg r = s.reg r := rfl

/-! ### emit -/

@[simp] theorem State.emit_v (e : ResultSet) : (s.emit e).v = s.v := rfl
@[simp] theorem State.emit_i (e : ResultSet) : (s.emit e).i = s.i := rfl
@[simp] theorem State.emit_pc (e : ResultSet) : (s.emit e).pc = s.pc := rfl
@[simp] theorem State.emit_stack (e : ResultSet) : (s.emit e).stack = s.stack := rfl
@[simp] theorem State.emit_sp (e : ResultSet) : (s.emit e).sp = s.sp := rfl
@[simp] theorem State.emit_dt (e : ResultSet) : (s.emit e).dt = s.dt := rfl
@[simp] theorem State.emit_st (e : ResultSet) : (s.emit e).st = s.st := rfl
@[simp] theorem State.emit_display (e : ResultSet) : (s.emit e).display = s.display := rfl
@[simp] theorem State.emit_key (e : ResultSet) : (s.emit e).key = s.key := rfl
@[simp] theorem State.emit_mem (e : ResultSet) : (s.emit e).mem = s.mem := rfl
@[simp] theorem State.emit_runState (e : ResultSet) : (s.emit e).runState = s.runState := rfl
@[simp] theorem State.emit_err (e : ResultSet) : (s.emit e).err = s.err := rfl
@[simp] theorem State.emit_kwSnap (e : ResultSet) : (s.emit e).kwSnap = s.kwSnap := rfl
@[simp] theorem State.emit_events (e : ResultSet) : (s.emit e).events = e := rfl
@[simp] theorem State.emit_params (e : ResultSet) : (s.emit e).params = s.params := rfl
@[simp] theorem State.emit_agenda (e : ResultSet) : (s.emit e).agenda = s.agenda := rfl
@[simp] theorem State.emit_schedule (e : ResultSet) : (s.emit e).schedule = s.schedule := rfl
@[simp] theorem State.emit_randFeed (e : ResultSet) : (s.emit e).randFeed = s.randFeed := rfl
@[simp] theorem State.emit_draws (e : ResultSet) : (s.emit e).draws = s.draws := rfl
@[simp] theorem State.emit_loadOpen (e : ResultSet) : (s.emit e).loadOpen = s.loadOpen := rfl
@[simp] theorem State.emit_reg (e : ResultSet) (r : Nibble) : (s.emit e).reg r = s.reg r := rfl

/-! ### advance -/

@[simp] theorem State.advance_v : (s.advance).v = s.v := rfl
@[simp] theorem State.advance_i : (s.advance).i = s.i := rfl
@[simp] theorem State.advance_pc : (s.advance).pc = s.nextPc := rfl
@[simp] theorem State.advance_stack : (s.advance).stack = s.stack := rfl
@[simp] theorem State.advance_sp : (s.advance).sp = s.sp := rfl
@[simp] theorem State.advance_dt : (s.advance).dt = s.dt := rfl
@[simp] theorem State.advance_st : (s.advance).st = s.st := rfl
@[simp] theorem State.advance_display : (s.advance).display = s.display := rfl
@[simp] theorem State.advance_key : (s.advance).key = s.key := rfl
@[simp] theorem State.advance_mem : (s.advance).mem = s.mem := rfl
@[simp] theorem State.advance_runState : (s.advance).runState = s.runState := rfl
@[simp] theorem State.advance_err : (s.advance).err = s.err := rfl
@[simp] theorem State.advance_kwSnap : (s.advance).kwSnap = s.kwSnap := rfl
@[simp] theorem State.advance_events : (s.advance).events = {} := rfl
@[simp] theorem State.advance_params : (s.advance).params = s.params := rfl
@[simp] theorem State.advance_agenda : (s.advance).agenda = s.agenda := rfl
@[simp] theorem State.advance_schedule : (s.advance).schedule = s.schedule := rfl
@[simp] theorem State.advance_randFeed : (s.advance).randFeed = s.randFeed := rfl
@[simp] theorem State.advance_draws : (s.advance).draws = s.draws := rfl
@[simp] theorem State.advance_loadOpen : (s.advance).loadOpen = s.loadOpen := rfl
@[simp] theorem State.advance_reg (r : Nibble) : (s.advance).reg r = s.reg r := rfl

/-! ### storeBytes -/

@[simp] theorem State.storeBytes_v (a : Nat) (bs : List Byte) : (s.storeBytes a bs).v = s.v := rfl
@[simp] theorem State.storeBytes_i (a : Nat) (bs : List Byte) : (s.storeBytes a bs).i = s.i := rfl
@[simp] theorem State.storeBytes_pc (a : Nat) (bs : List Byte) : (s.storeBytes a bs).pc = s.pc := rfl
@[simp] theorem State.storeBytes_stack (a : Nat) (bs : List Byte) : (s.storeBytes a bs).stack = s.stack := rfl
@[simp] theorem State.storeBytes_sp (a : Nat) (bs : List Byte) : (s.storeBytes a bs).sp = s.sp := rfl
@[simp] theorem State.storeBytes_dt (a : Nat) (bs : List Byte) : (s.storeBytes a bs).dt = s.dt := rfl
@[simp] theorem State.storeBytes_st (a : Nat) (bs : List Byte) : (s.storeBytes a bs).st = s.st := rfl
@[simp] theorem State.storeBytes_display (a : Nat) (bs : List Byte) : (s.storeBytes a bs).display = s.display := rfl
@[simp] theorem State.storeBytes_key (a : Nat) (bs : List Byte) : (s.storeBytes a bs).key = s.key := rfl
@[simp] theorem State.storeBytes_mem (a : Nat) (bs : List Byte) : (s.storeBytes a bs).mem = Memory.writeBytes s.mem a bs := rfl
@[simp] theorem State.storeBytes_runState (a : Nat) (bs : List Byte) : (s.storeBytes a bs).runState = s.runState := rfl
@[simp] theorem State.storeBytes_err (a : Nat) (bs : List Byte) : (s.storeBytes a bs).err = s.err := rfl
@[simp] theorem State.storeBytes_kwSnap (a : Nat) (bs : List Byte) : (s.storeBytes a bs).kwSnap = s.kwSnap := rfl
@[simp] theorem State.storeBytes_events (a : Nat) (bs : List Byte) : (s.storeBytes a bs).events = s.events := rfl
@[simp] theorem State.storeBytes_params (a : Nat) (bs : List Byte) : (s.storeBytes a bs).params = s.params := rfl
@[simp] theorem State.storeBytes_agenda (a : Nat) (bs : List Byte) : (s.storeBytes a bs).agenda = s.agenda := rfl
@[simp] theorem State.storeBytes_schedule (a : Nat) (bs : List Byte) : (s.storeBytes a bs).schedule = s.schedule := rfl
@[simp] theorem State.storeBytes_randFeed (a : Nat) (bs : List Byte) : (s.storeBytes a bs).randFeed = s.randFeed := rfl
@[simp] theorem State.storeBytes_draws (a : Nat) (bs : List Byte) : (s.storeBytes a bs).draws = s.draws := rfl
@[simp] theorem State.storeBytes_loadOpen (a : Nat) (bs : List Byte) : (s.storeBytes a bs).loadOpen = s.loadOpen := rfl
@[simp] theorem State.storeBytes_reg (a : Nat) (bs : List Byte) (r : Nibble) : (s.storeBytes a bs).reg r = s.reg r := rfl

/-! ### loadRegs -/

@[simp] theorem State.loadRegs_i (x : Nibble) (a : Nat) : (s.loadRegs x a).i = s.i := rfl
@[simp] theorem State.loadRegs_pc (x : Nibble) (a : Nat) : (s.loadRegs x a).pc = s.pc := rfl
@[simp] theorem State.loadRegs_stack (x : Nibble) (a : Nat) : (s.loadRegs x a).stack = s.stack := rfl
@[simp] theorem State.loadRegs_sp (x : Nibble) (a : Nat) : (s.loadRegs x a).sp = s.sp := rfl
@[simp] theorem State.loadRegs_dt (x : Nibble) (a : Nat) : (s.loadRegs x a).dt = s.dt := rfl
@[simp] theorem State.loadRegs_st (x : Nibble) (a : Nat) : (s.loadRegs x a).st = s.st := rfl
@[simp] theorem State.loadRegs_display (x : Nibble) (a : Nat) : (s.loadRegs x a).display = s.display := rfl
@[simp] theorem State.loadRegs_key (x : Nibble) (a : Nat) : (s.loadRegs x a).key = s.key := rfl
@[simp] theorem State.loadRegs_mem (x : Nibble) (a : Nat) : (s.loadRegs x a).mem = s.mem := rfl
@[simp] theorem State.loadRegs_runState (x : Nibble) (a : Nat) : (s.loadRegs x a).runState = s.runState := rfl
@[simp] theorem State.loadRegs_err (x : Nibble) (a : Nat) : (s.loadRegs x a).err = s.err := rfl
@[simp] theorem State.loadRegs_kwSnap (x : Nibble) (a : Nat) : (s.loadRegs x a).kwSnap = s.kwSnap := rfl
@[simp] theorem State.loadRegs_events (x : Nibble) (a : Nat) : (s.loadRegs x a).events = s.events := rfl
@[simp] theorem State.loadRegs_params (x : Nibble) (a : Nat) : (s.loadRegs x a).params = s.params := rfl
@[simp] theorem State.loadRegs_agenda (x : Nibble) (a : Nat) : (s.loadRegs x a).agenda = s.agenda := rfl
@[simp] theorem State.loadRegs_schedule (x : Nibble) (a : Nat) : (s.loadRegs x a).schedule = s.schedule := rfl
@[simp] theorem State.loadRegs_randFeed (x : Nibble) (a : Nat) : (s.loadRegs x a).randFeed = s.randFeed := rfl
@[simp] theorem State.loadRegs_draws (x : Nibble) (a : Nat) : (s.loadRegs x a).draws = s.draws := rfl
@[simp] theorem State.loadRegs_loadOpen (x : Nibble) (a : Nat) : (s.loadRegs x a).loadOpen = s.loadOpen := rfl

/-! ### takeDraw -/

@[simp] theorem State.takeDraw_v : (s.takeDraw).v = s.v := rfl
@[simp] theorem State.takeDraw_i : (s.takeDraw).i = s.i := rfl
@[simp] theorem State.takeDraw_pc : (s.takeDraw).pc = s.pc := rfl
@[simp] theorem State.takeDraw_stack : (s.takeDraw).stack = s.stack := rfl
@[simp] theorem State.takeDraw_sp : (s.takeDraw).sp = s.sp := rfl
@[simp] theorem State.takeDraw_dt : (s.takeDraw).dt = s.dt := rfl
@[simp] theorem State.takeDraw_st : (s.takeDraw).st = s.st := rfl
@[simp] theorem State.takeDraw_display : (s.takeDraw).display = s.display := rfl
@[simp] theorem State.takeDraw_key : (s.takeDraw).key = s.key := rfl
@[simp] theorem State.takeDraw_mem : (s.takeDraw).mem = s.mem := rfl
@[simp] theorem State.takeDraw_runState : (s.takeDraw).runState = s.runState := rfl
@[simp] theorem State.takeDraw_err : (s.takeDraw).err = s.err := rfl
@[simp] theorem State.takeDraw_kwSnap : (s.takeDraw).kwSnap = s.kwSnap := rfl
@[simp] theorem State.takeDraw_events : (s.takeDraw).events = s.events := rfl
@[simp] theorem State.takeDraw_params : (s.takeDraw).params = s.params := rfl
@[simp] theorem State.takeDraw_agenda : (s.takeDraw).agenda = s.agenda := rfl
@[simp] theorem State.takeDraw_schedule : (s.takeDraw).schedule = s.schedule := rfl
@[simp] theorem State.takeDraw_randFeed : (s.takeDraw).randFeed = s.randFeed.tail := rfl
@[simp] theorem State.takeDraw_draws : (s.takeDraw).draws = s.draws + 1 := rfl
@[simp] theorem State.takeDraw_loadOpen : (s.takeDraw).loadOpen = s.loadOpen := rfl
@[simp] theorem State.takeDraw_reg (r : Nibble) : (s.takeDraw).reg r = s.reg r := rfl

/-! ### enterHalted -/

@[simp] theorem State.enterHalted_v (e : Option ErrorRecord) : (s.enterHalted e).v = s.v := rfl
@[simp] theorem State.enterHalted_i (e : Option ErrorRecord) : (s.enterHalted e).i = s.i := rfl
@[simp] theorem State.enterHalted_pc (e : Option ErrorRecord) : (s.enterHalted e).pc = s.pc := rfl
@[simp] theorem State.enterHalted_stack (e : Option ErrorRecord) : (s.enterHalted e).stack = s.stack := rfl
@[simp] theorem State.enterHalted_sp (e : Option ErrorRecord) : (s.enterHalted e).sp = s.sp := rfl
@[simp] theorem State.enterHalted_dt (e : Option ErrorRecord) : (s.enterHalted e).dt = s.dt := rfl
@[simp] theorem State.enterHalted_st (e : Option ErrorRecord) : (s.enterHalted e).st = s.st := rfl
@[simp] theorem State.enterHalted_display (e : Option ErrorRecord) : (s.enterHalted e).display = s.display := rfl
@[simp] theorem State.enterHalted_key (e : Option ErrorRecord) : (s.enterHalted e).key = s.key := rfl
@[simp] theorem State.enterHalted_mem (e : Option ErrorRecord) : (s.enterHalted e).mem = s.mem := rfl
@[simp] theorem State.enterHalted_runState (e : Option ErrorRecord) : (s.enterHalted e).runState = .halted := rfl
@[simp] theorem State.enterHalted_err (e : Option ErrorRecord) : (s.enterHalted e).err = e := rfl
@[simp] theorem State.enterHalted_kwSnap (e : Option ErrorRecord) : (s.enterHalted e).kwSnap = s.kwSnap := rfl
@[simp] theorem State.enterHalted_events (e : Option ErrorRecord) : (s.enterHalted e).events = { halted := true } := rfl
@[simp] theorem State.enterHalted_params (e : Option ErrorRecord) : (s.enterHalted e).params = s.params := rfl
@[simp] theorem State.enterHalted_agenda (e : Option ErrorRecord) : (s.enterHalted e).agenda = s.agenda := rfl
@[simp] theorem State.enterHalted_schedule (e : Option ErrorRecord) : (s.enterHalted e).schedule = s.schedule := rfl
@[simp] theorem State.enterHalted_randFeed (e : Option ErrorRecord) : (s.enterHalted e).randFeed = s.randFeed := rfl
@[simp] theorem State.enterHalted_draws (e : Option ErrorRecord) : (s.enterHalted e).draws = s.draws := rfl
@[simp] theorem State.enterHalted_loadOpen (e : Option ErrorRecord) : (s.enterHalted e).loadOpen = s.loadOpen := rfl
@[simp] theorem State.enterHalted_reg (e : Option ErrorRecord) (r : Nibble) : (s.enterHalted e).reg r = s.reg r := rfl

/-! ### raise -/

@[simp] theorem State.raise_v (k : ErrorKind) (o : Option Word) (a : Option Nat) : (s.raise k o a).v = s.v := rfl
@[simp] theorem State.raise_i (k : ErrorKind) (o : Option Word) (a : Option Nat) : (s.raise k o a).i = s.i := rfl
@[simp] theorem State.raise_pc (k : ErrorKind) (o : Option Word) (a : Option Nat) : (s.raise k o a).pc = s.pc := rfl
@[simp] theorem State.raise_stack (k : ErrorKind) (o : Option Word) (a : Option Nat) : (s.raise k o a).stack = s.stack := rfl
@[simp] theorem State.raise_sp (k : ErrorKind) (o : Option Word) (a : Option Nat) : (s.raise k o a).sp = s.sp := rfl
@[simp] theorem State.raise_dt (k : ErrorKind) (o : Option Word) (a : Option Nat) : (s.raise k o a).dt = s.dt := rfl
@[simp] theorem State.raise_st (k : ErrorKind) (o : Option Word) (a : Option Nat) : (s.raise k o a).st = s.st := rfl
@[simp] theorem State.raise_display (k : ErrorKind) (o : Option Word) (a : Option Nat) : (s.raise k o a).display = s.display := rfl
@[simp] theorem State.raise_key (k : ErrorKind) (o : Option Word) (a : Option Nat) : (s.raise k o a).key = s.key := rfl
@[simp] theorem State.raise_mem (k : ErrorKind) (o : Option Word) (a : Option Nat) : (s.raise k o a).mem = s.mem := rfl
@[simp] theorem State.raise_runState (k : ErrorKind) (o : Option Word) (a : Option Nat) : (s.raise k o a).runState = .halted := rfl
@[simp] theorem State.raise_err (k : ErrorKind) (o : Option Word) (a : Option Nat) : (s.raise k o a).err = some { kind := k, pc := s.pc, opcode := o, addr := a } := rfl
@[simp] theorem State.raise_kwSnap (k : ErrorKind) (o : Option Word) (a : Option Nat) : (s.raise k o a).kwSnap = s.kwSnap := rfl
@[simp] theorem State.raise_events (k : ErrorKind) (o : Option Word) (a : Option Nat) : (s.raise k o a).events = { halted := true } := rfl
@[simp] theorem State.raise_params (k : ErrorKind) (o : Option Word) (a : Option Nat) : (s.raise k o a).params = s.params := rfl
@[simp] theorem State.raise_agenda (k : ErrorKind) (o : Option Word) (a : Option Nat) : (s.raise k o a).agenda = s.agenda := rfl
@[simp] theorem State.raise_schedule (k : ErrorKind) (o : Option Word) (a : Option Nat) : (s.raise k o a).schedule = s.schedule := rfl
@[simp] theorem State.raise_randFeed (k : ErrorKind) (o : Option Word) (a : Option Nat) : (s.raise k o a).randFeed = s.randFeed := rfl
@[simp] theorem State.raise_draws (k : ErrorKind) (o : Option Word) (a : Option Nat) : (s.raise k o a).draws = s.draws := rfl
@[simp] theorem State.raise_loadOpen (k : ErrorKind) (o : Option Word) (a : Option Nat) : (s.raise k o a).loadOpen = s.loadOpen := rfl
@[simp] theorem State.raise_reg (k : ErrorKind) (o : Option Word) (a : Option Nat) (r : Nibble) : (s.raise k o a).reg r = s.reg r := rfl

/-! ### raiseBy -/

@[simp] theorem State.raiseBy_v (j : Instr) (k : ErrorKind) (a : Option Nat) : (s.raiseBy j k a).v = s.v := rfl
@[simp] theorem State.raiseBy_i (j : Instr) (k : ErrorKind) (a : Option Nat) : (s.raiseBy j k a).i = s.i := rfl
@[simp] theorem State.raiseBy_pc (j : Instr) (k : ErrorKind) (a : Option Nat) : (s.raiseBy j k a).pc = s.pc := rfl
@[simp] theorem State.raiseBy_stack (j : Instr) (k : ErrorKind) (a : Option Nat) : (s.raiseBy j k a).stack = s.stack := rfl
@[simp] theorem State.raiseBy_sp (j : Instr) (k : ErrorKind) (a : Option Nat) : (s.raiseBy j k a).sp = s.sp := rfl
@[simp] theorem State.raiseBy_dt (j : Instr) (k : ErrorKind) (a : Option Nat) : (s.raiseBy j k a).dt = s.dt := rfl
@[simp] theorem State.raiseBy_st (j : Instr) (k : ErrorKind) (a : Option Nat) : (s.raiseBy j k a).st = s.st := rfl
@[simp] theorem State.raiseBy_display (j : Instr) (k : ErrorKind) (a : Option Nat) : (s.raiseBy j k a).display = s.display := rfl
@[simp] theorem State.raiseBy_key (j : Instr) (k : ErrorKind) (a : Option Nat) : (s.raiseBy j k a).key = s.key := rfl
@[simp] theorem State.raiseBy_mem (j : Instr) (k : ErrorKind) (a : Option Nat) : (s.raiseBy j k a).mem = s.mem := rfl
@[simp] theorem State.raiseBy_runState (j : Instr) (k : ErrorKind) (a : Option Nat) : (s.raiseBy j k a).runState = .halted := rfl
@[simp] theorem State.raiseBy_err (j : Instr) (k : ErrorKind) (a : Option Nat) : (s.raiseBy j k a).err = some { kind := k, pc := s.pc, opcode := some (encode j), addr := a } := rfl
@[simp] theorem State.raiseBy_kwSnap (j : Instr) (k : ErrorKind) (a : Option Nat) : (s.raiseBy j k a).kwSnap = s.kwSnap := rfl
@[simp] theorem State.raiseBy_events (j : Instr) (k : ErrorKind) (a : Option Nat) : (s.raiseBy j k a).events = { halted := true } := rfl
@[simp] theorem State.raiseBy_params (j : Instr) (k : ErrorKind) (a : Option Nat) : (s.raiseBy j k a).params = s.params := rfl
@[simp] theorem State.raiseBy_agenda (j : Instr) (k : ErrorKind) (a : Option Nat) : (s.raiseBy j k a).agenda = s.agenda := rfl
@[simp] theorem State.raiseBy_schedule (j : Instr) (k : ErrorKind) (a : Option Nat) : (s.raiseBy j k a).schedule = s.schedule := rfl
@[simp] theorem State.raiseBy_randFeed (j : Instr) (k : ErrorKind) (a : Option Nat) : (s.raiseBy j k a).randFeed = s.randFeed := rfl
@[simp] theorem State.raiseBy_draws (j : Instr) (k : ErrorKind) (a : Option Nat) : (s.raiseBy j k a).draws = s.draws := rfl
@[simp] theorem State.raiseBy_loadOpen (j : Instr) (k : ErrorKind) (a : Option Nat) : (s.raiseBy j k a).loadOpen = s.loadOpen := rfl
@[simp] theorem State.raiseBy_reg (j : Instr) (k : ErrorKind) (a : Option Nat) (r : Nibble) : (s.raiseBy j k a).reg r = s.reg r := rfl

/-! ### enterKeyWait -/

@[simp] theorem State.enterKeyWait_v : (s.enterKeyWait).v = s.v := rfl
@[simp] theorem State.enterKeyWait_i : (s.enterKeyWait).i = s.i := rfl
@[simp] theorem State.enterKeyWait_pc : (s.enterKeyWait).pc = s.pc := rfl
@[simp] theorem State.enterKeyWait_stack : (s.enterKeyWait).stack = s.stack := rfl
@[simp] theorem State.enterKeyWait_sp : (s.enterKeyWait).sp = s.sp := rfl
@[simp] theorem State.enterKeyWait_dt : (s.enterKeyWait).dt = s.dt := rfl
@[simp] theorem State.enterKeyWait_st : (s.enterKeyWait).st = s.st := rfl
@[simp] theorem State.enterKeyWait_display : (s.enterKeyWait).display = s.display := rfl
@[simp] theorem State.enterKeyWait_key : (s.enterKeyWait).key = s.key := rfl
@[simp] theorem State.enterKeyWait_mem : (s.enterKeyWait).mem = s.mem := rfl
@[simp] theorem State.enterKeyWait_runState : (s.enterKeyWait).runState = .waitingForKey := rfl
@[simp] theorem State.enterKeyWait_err : (s.enterKeyWait).err = s.err := rfl
@[simp] theorem State.enterKeyWait_kwSnap : (s.enterKeyWait).kwSnap = s.key := rfl
@[simp] theorem State.enterKeyWait_events : (s.enterKeyWait).events = { keyWait := true } := rfl
@[simp] theorem State.enterKeyWait_params : (s.enterKeyWait).params = s.params := rfl
@[simp] theorem State.enterKeyWait_agenda : (s.enterKeyWait).agenda = s.agenda := rfl
@[simp] theorem State.enterKeyWait_schedule : (s.enterKeyWait).schedule = s.schedule := rfl
@[simp] theorem State.enterKeyWait_randFeed : (s.enterKeyWait).randFeed = s.randFeed := rfl
@[simp] theorem State.enterKeyWait_draws : (s.enterKeyWait).draws = s.draws := rfl
@[simp] theorem State.enterKeyWait_loadOpen : (s.enterKeyWait).loadOpen = s.loadOpen := rfl
@[simp] theorem State.enterKeyWait_reg (r : Nibble) : (s.enterKeyWait).reg r = s.reg r := rfl

/-! ### takeMove -/

@[simp] theorem State.takeMove_v : (s.takeMove).v = s.v := rfl
@[simp] theorem State.takeMove_i : (s.takeMove).i = s.i := rfl
@[simp] theorem State.takeMove_pc : (s.takeMove).pc = s.pc := rfl
@[simp] theorem State.takeMove_stack : (s.takeMove).stack = s.stack := rfl
@[simp] theorem State.takeMove_sp : (s.takeMove).sp = s.sp := rfl
@[simp] theorem State.takeMove_dt : (s.takeMove).dt = s.dt := rfl
@[simp] theorem State.takeMove_st : (s.takeMove).st = s.st := rfl
@[simp] theorem State.takeMove_display : (s.takeMove).display = s.display := rfl
@[simp] theorem State.takeMove_key : (s.takeMove).key = s.key := rfl
@[simp] theorem State.takeMove_mem : (s.takeMove).mem = s.mem := rfl
@[simp] theorem State.takeMove_runState : (s.takeMove).runState = s.runState := rfl
@[simp] theorem State.takeMove_err : (s.takeMove).err = s.err := rfl
@[simp] theorem State.takeMove_kwSnap : (s.takeMove).kwSnap = s.kwSnap := rfl
@[simp] theorem State.takeMove_events : (s.takeMove).events = s.events := rfl
@[simp] theorem State.takeMove_params : (s.takeMove).params = s.params := rfl
@[simp] theorem State.takeMove_agenda : (s.takeMove).agenda = s.agenda.tail := rfl
@[simp] theorem State.takeMove_schedule : (s.takeMove).schedule = s.restSchedule := rfl
@[simp] theorem State.takeMove_randFeed : (s.takeMove).randFeed = s.randFeed := rfl
@[simp] theorem State.takeMove_draws : (s.takeMove).draws = s.draws := rfl
@[simp] theorem State.takeMove_loadOpen : (s.takeMove).loadOpen = s.loadOpen := rfl
@[simp] theorem State.takeMove_reg (r : Nibble) : (s.takeMove).reg r = s.reg r := rfl

/-! ### beginCycle -/

@[simp] theorem State.beginCycle_v : (s.beginCycle).v = s.v := rfl
@[simp] theorem State.beginCycle_i : (s.beginCycle).i = s.i := rfl
@[simp] theorem State.beginCycle_pc : (s.beginCycle).pc = s.pc := rfl
@[simp] theorem State.beginCycle_stack : (s.beginCycle).stack = s.stack := rfl
@[simp] theorem State.beginCycle_sp : (s.beginCycle).sp = s.sp := rfl
@[simp] theorem State.beginCycle_dt : (s.beginCycle).dt = s.dt := rfl
@[simp] theorem State.beginCycle_st : (s.beginCycle).st = s.st := rfl
@[simp] theorem State.beginCycle_display : (s.beginCycle).display = s.display := rfl
@[simp] theorem State.beginCycle_key : (s.beginCycle).key = s.key := rfl
@[simp] theorem State.beginCycle_mem : (s.beginCycle).mem = s.mem := rfl
@[simp] theorem State.beginCycle_runState : (s.beginCycle).runState = s.runState := rfl
@[simp] theorem State.beginCycle_err : (s.beginCycle).err = s.err := rfl
@[simp] theorem State.beginCycle_kwSnap : (s.beginCycle).kwSnap = s.kwSnap := rfl
@[simp] theorem State.beginCycle_events : (s.beginCycle).events = s.events := rfl
@[simp] theorem State.beginCycle_params : (s.beginCycle).params = s.params := rfl
@[simp] theorem State.beginCycle_agenda : (s.beginCycle).agenda = s.agenda := rfl
@[simp] theorem State.beginCycle_schedule : (s.beginCycle).schedule = s.schedule := rfl
@[simp] theorem State.beginCycle_randFeed : (s.beginCycle).randFeed = s.randFeed := rfl
@[simp] theorem State.beginCycle_draws : (s.beginCycle).draws = s.draws := rfl
@[simp] theorem State.beginCycle_loadOpen : (s.beginCycle).loadOpen = false := rfl
@[simp] theorem State.beginCycle_reg (r : Nibble) : (s.beginCycle).reg r = s.reg r := rfl

/-! ### setKey -/

@[simp] theorem State.setKey_v (k : Nibble) (p : Bool) : (s.setKey k p).v = s.v := rfl
@[simp] theorem State.setKey_i (k : Nibble) (p : Bool) : (s.setKey k p).i = s.i := rfl
@[simp] theorem State.setKey_pc (k : Nibble) (p : Bool) : (s.setKey k p).pc = s.pc := rfl
@[simp] theorem State.setKey_stack (k : Nibble) (p : Bool) : (s.setKey k p).stack = s.stack := rfl
@[simp] theorem State.setKey_sp (k : Nibble) (p : Bool) : (s.setKey k p).sp = s.sp := rfl
@[simp] theorem State.setKey_dt (k : Nibble) (p : Bool) : (s.setKey k p).dt = s.dt := rfl
@[simp] theorem State.setKey_st (k : Nibble) (p : Bool) : (s.setKey k p).st = s.st := rfl
@[simp] theorem State.setKey_display (k : Nibble) (p : Bool) : (s.setKey k p).display = s.display := rfl
@[simp] theorem State.setKey_mem (k : Nibble) (p : Bool) : (s.setKey k p).mem = s.mem := rfl
@[simp] theorem State.setKey_runState (k : Nibble) (p : Bool) : (s.setKey k p).runState = s.runState := rfl
@[simp] theorem State.setKey_err (k : Nibble) (p : Bool) : (s.setKey k p).err = s.err := rfl
@[simp] theorem State.setKey_kwSnap (k : Nibble) (p : Bool) : (s.setKey k p).kwSnap = s.kwSnap := rfl
@[simp] theorem State.setKey_events (k : Nibble) (p : Bool) : (s.setKey k p).events = {} := rfl
@[simp] theorem State.setKey_params (k : Nibble) (p : Bool) : (s.setKey k p).params = s.params := rfl
@[simp] theorem State.setKey_agenda (k : Nibble) (p : Bool) : (s.setKey k p).agenda = s.agenda := rfl
@[simp] theorem State.setKey_schedule (k : Nibble) (p : Bool) : (s.setKey k p).schedule = s.schedule := rfl
@[simp] theorem State.setKey_randFeed (k : Nibble) (p : Bool) : (s.setKey k p).randFeed = s.randFeed := rfl
@[simp] theorem State.setKey_draws (k : Nibble) (p : Bool) : (s.setKey k p).draws = s.draws := rfl
@[simp] theorem State.setKey_loadOpen (k : Nibble) (p : Bool) : (s.setKey k p).loadOpen = s.loadOpen := rfl
@[simp] theorem State.setKey_reg (k : Nibble) (p : Bool) (r : Nibble) : (s.setKey k p).reg r = s.reg r := rfl

/-! ### skipIf -/

@[simp] theorem State.skipIf_v (c : Bool) : (s.skipIf c).v = s.v := by
  unfold State.skipIf; split <;> rfl
@[simp] theorem State.skipIf_i (c : Bool) : (s.skipIf c).i = s.i := by
  unfold State.skipIf; split <;> rfl
@[simp] theorem State.skipIf_stack (c : Bool) : (s.skipIf c).stack = s.stack := by
  unfold State.skipIf; split <;> rfl
@[simp] theorem State.skipIf_sp (c : Bool) : (s.skipIf c).sp = s.sp := by
  unfold State.skipIf; split <;> rfl
@[simp] theorem State.skipIf_dt (c : Bool) : (s.skipIf c).dt = s.dt := by
  unfold State.skipIf; split <;> rfl
@[simp] theorem State.skipIf_st (c : Bool) : (s.skipIf c).st = s.st := by
  unfold State.skipIf; split <;> rfl
@[simp] theorem State.skipIf_display (c : Bool) : (s.skipIf c).display = s.display := by
  unfold State.skipIf; split <;> rfl
@[simp] theorem State.skipIf_key (c : Bool) : (s.skipIf c).key = s.key := by
  unfold State.skipIf; split <;> rfl
@[simp] theorem State.skipIf_mem (c : Bool) : (s.skipIf c).mem = s.mem := by
  unfold State.skipIf; split <;> rfl
@[simp] theorem State.skipIf_runState (c : Bool) : (s.skipIf c).runState = s.runState := by
  unfold State.skipIf; split <;> rfl
@[simp] theorem State.skipIf_err (c : Bool) : (s.skipIf c).err = s.err := by
  unfold State.skipIf; split <;> rfl
@[simp] theorem State.skipIf_kwSnap (c : Bool) : (s.skipIf c).kwSnap = s.kwSnap := by
  unfold State.skipIf; split <;> rfl
@[simp] theorem State.skipIf_params (c : Bool) : (s.skipIf c).params = s.params := by
  unfold State.skipIf; split <;> rfl
@[simp] theorem State.skipIf_agenda (c : Bool) : (s.skipIf c).agenda = s.agenda := by
  unfold State.skipIf; split <;> rfl
@[simp] theorem State.skipIf_schedule (c : Bool) : (s.skipIf c).schedule = s.schedule := by
  unfold State.skipIf; split <;> rfl
@[simp] theorem State.skipIf_randFeed (c : Bool) : (s.skipIf c).randFeed = s.randFeed := by
  unfold State.skipIf; split <;> rfl
@[simp] theorem State.skipIf_draws (c : Bool) : (s.skipIf c).draws = s.draws := by
  unfold State.skipIf; split <;> rfl
@[simp] theorem State.skipIf_loadOpen (c : Bool) : (s.skipIf c).loadOpen = s.loadOpen := by
  unfold State.skipIf; split <;> rfl
@[simp] theorem State.skipIf_reg (c : Bool) (r : Nibble) : (s.skipIf c).reg r = s.reg r := by
  unfold State.skipIf; split <;> rfl

/-! ### tick -/

@[simp] theorem State.tick_v : (s.tick).v = s.v := by
  unfold State.tick; split <;> rfl
@[simp] theorem State.tick_i : (s.tick).i = s.i := by
  unfold State.tick; split <;> rfl
@[simp] theorem State.tick_pc : (s.tick).pc = s.pc := by
  unfold State.tick; split <;> rfl
@[simp] theorem State.tick_stack : (s.tick).stack = s.stack := by
  unfold State.tick; split <;> rfl
@[simp] theorem State.tick_sp : (s.tick).sp = s.sp := by
  unfold State.tick; split <;> rfl
@[simp] theorem State.tick_display : (s.tick).display = s.display := by
  unfold State.tick; split <;> rfl
@[simp] theorem State.tick_key : (s.tick).key = s.key := by
  unfold State.tick; split <;> rfl
@[simp] theorem State.tick_mem : (s.tick).mem = s.mem := by
  unfold State.tick; split <;> rfl
@[simp] theorem State.tick_runState : (s.tick).runState = s.runState := by
  unfold State.tick; split <;> rfl
@[simp] theorem State.tick_err : (s.tick).err = s.err := by
  unfold State.tick; split <;> rfl
@[simp] theorem State.tick_kwSnap : (s.tick).kwSnap = s.kwSnap := by
  unfold State.tick; split <;> rfl
@[simp] theorem State.tick_params : (s.tick).params = s.params := by
  unfold State.tick; split <;> rfl
@[simp] theorem State.tick_agenda : (s.tick).agenda = s.agenda := by
  unfold State.tick; split <;> rfl
@[simp] theorem State.tick_schedule : (s.tick).schedule = s.schedule := by
  unfold State.tick; split <;> rfl
@[simp] theorem State.tick_randFeed : (s.tick).randFeed = s.randFeed := by
  unfold State.tick; split <;> rfl
@[simp] theorem State.tick_draws : (s.tick).draws = s.draws := by
  unfold State.tick; split <;> rfl
@[simp] theorem State.tick_loadOpen : (s.tick).loadOpen = s.loadOpen := by
  unfold State.tick; split <;> rfl
@[simp] theorem State.tick_reg (r : Nibble) : (s.tick).reg r = s.reg r := by
  unfold State.tick; split <;> rfl

/-! ### stop -/

@[simp] theorem State.stop_v : (s.stop).v = s.v := by
  unfold State.stop; split <;> rfl
@[simp] theorem State.stop_i : (s.stop).i = s.i := by
  unfold State.stop; split <;> rfl
@[simp] theorem State.stop_pc : (s.stop).pc = s.pc := by
  unfold State.stop; split <;> rfl
@[simp] theorem State.stop_stack : (s.stop).stack = s.stack := by
  unfold State.stop; split <;> rfl
@[simp] theorem State.stop_sp : (s.stop).sp = s.sp := by
  unfold State.stop; split <;> rfl
@[simp] theorem State.stop_dt : (s.stop).dt = s.dt := by
  unfold State.stop; split <;> rfl
@[simp] theorem State.stop_st : (s.stop).st = s.st := by
  unfold State.stop; split <;> rfl
@[simp] theorem State.stop_display : (s.stop).display = s.display := by
  unfold State.stop; split <;> rfl
@[simp] theorem State.stop_key : (s.stop).key = s.key := by
  unfold State.stop; split <;> rfl
@[simp] theorem State.stop_mem : (s.stop).mem = s.mem := by
  unfold State.stop; split <;> rfl
@[simp] theorem State.stop_kwSnap : (s.stop).kwSnap = s.kwSnap := by
  unfold State.stop; split <;> rfl
@[simp] theorem State.stop_params : (s.stop).params = s.params := by
  unfold State.stop; split <;> rfl
@[simp] theorem State.stop_agenda : (s.stop).agenda = s.agenda := by
  unfold State.stop; split <;> rfl
@[simp] theorem State.stop_schedule : (s.stop).schedule = s.schedule := by
  unfold State.stop; split <;> rfl
@[simp] theorem State.stop_randFeed : (s.stop).randFeed = s.randFeed := by
  unfold State.stop; split <;> rfl
@[simp] theorem State.stop_draws : (s.stop).draws = s.draws := by
  unfold State.stop; split <;> rfl
@[simp] theorem State.stop_loadOpen : (s.stop).loadOpen = s.loadOpen := by
  unfold State.stop; split <;> rfl
@[simp] theorem State.stop_reg (r : Nibble) : (s.stop).reg r = s.reg r := by
  unfold State.stop; split <;> rfl

/-! ### pollStep -/

@[simp] theorem State.pollStep_i (x : Nibble) : (s.pollStep x).i = s.i := by
  unfold State.pollStep; split <;> rfl
@[simp] theorem State.pollStep_stack (x : Nibble) : (s.pollStep x).stack = s.stack := by
  unfold State.pollStep; split <;> rfl
@[simp] theorem State.pollStep_sp (x : Nibble) : (s.pollStep x).sp = s.sp := by
  unfold State.pollStep; split <;> rfl
@[simp] theorem State.pollStep_dt (x : Nibble) : (s.pollStep x).dt = s.dt := by
  unfold State.pollStep; split <;> rfl
@[simp] theorem State.pollStep_st (x : Nibble) : (s.pollStep x).st = s.st := by
  unfold State.pollStep; split <;> rfl
@[simp] theorem State.pollStep_display (x : Nibble) : (s.pollStep x).display = s.display := by
  unfold State.pollStep; split <;> rfl
@[simp] theorem State.pollStep_key (x : Nibble) : (s.pollStep x).key = s.key := by
  unfold State.pollStep; split <;> rfl
@[simp] theorem State.pollStep_mem (x : Nibble) : (s.pollStep x).mem = s.mem := by
  unfold State.pollStep; split <;> rfl
@[simp] theorem State.pollStep_err (x : Nibble) : (s.pollStep x).err = s.err := by
  unfold State.pollStep; split <;> rfl
@[simp] theorem State.pollStep_params (x : Nibble) : (s.pollStep x).params = s.params := by
  unfold State.pollStep; split <;> rfl
@[simp] theorem State.pollStep_agenda (x : Nibble) : (s.pollStep x).agenda = s.agenda := by
  unfold State.pollStep; split <;> rfl
@[simp] theorem State.pollStep_schedule (x : Nibble) : (s.pollStep x).schedule = s.schedule := by
  unfold State.pollStep; split <;> rfl
@[simp] theorem State.pollStep_randFeed (x : Nibble) : (s.pollStep x).randFeed = s.randFeed := by
  unfold State.pollStep; split <;> rfl
@[simp] theorem State.pollStep_draws (x : Nibble) : (s.pollStep x).draws = s.draws := by
  unfold State.pollStep; split <;> rfl
@[simp] theorem State.pollStep_loadOpen (x : Nibble) : (s.pollStep x).loadOpen = s.loadOpen := by
  unfold State.pollStep; split <;> rfl

/-! ### load -/

@[simp] theorem State.load_v (bs : List Byte) : (s.load bs).v = s.v := by
  unfold State.load; split <;> rfl
@[simp] theorem State.load_i (bs : List Byte) : (s.load bs).i = s.i := by
  unfold State.load; split <;> rfl
@[simp] theorem State.load_pc (bs : List Byte) : (s.load bs).pc = s.pc := by
  unfold State.load; split <;> rfl
@[simp] theorem State.load_stack (bs : List Byte) : (s.load bs).stack = s.stack := by
  unfold State.load; split <;> rfl
@[simp] theorem State.load_sp (bs : List Byte) : (s.load bs).sp = s.sp := by
  unfold State.load; split <;> rfl
@[simp] theorem State.load_dt (bs : List Byte) : (s.load bs).dt = s.dt := by
  unfold State.load; split <;> rfl
@[simp] theorem State.load_st (bs : List Byte) : (s.load bs).st = s.st := by
  unfold State.load; split <;> rfl
@[simp] theorem State.load_display (bs : List Byte) : (s.load bs).display = s.display := by
  unfold State.load; split <;> rfl
@[simp] theorem State.load_key (bs : List Byte) : (s.load bs).key = s.key := by
  unfold State.load; split <;> rfl
@[simp] theorem State.load_kwSnap (bs : List Byte) : (s.load bs).kwSnap = s.kwSnap := by
  unfold State.load; split <;> rfl
@[simp] theorem State.load_params (bs : List Byte) : (s.load bs).params = s.params := by
  unfold State.load; split <;> rfl
@[simp] theorem State.load_agenda (bs : List Byte) : (s.load bs).agenda = s.agenda := by
  unfold State.load; split <;> rfl
@[simp] theorem State.load_schedule (bs : List Byte) : (s.load bs).schedule = s.schedule := by
  unfold State.load; split <;> rfl
@[simp] theorem State.load_randFeed (bs : List Byte) : (s.load bs).randFeed = s.randFeed := by
  unfold State.load; split <;> rfl
@[simp] theorem State.load_draws (bs : List Byte) : (s.load bs).draws = s.draws := by
  unfold State.load; split <;> rfl
@[simp] theorem State.load_reg (bs : List Byte) (r : Nibble) : (s.load bs).reg r = s.reg r := by
  unfold State.load; split <;> rfl

/-! ### skipIfKey -/

@[simp] theorem State.skipIfKey_v (j : Instr) (x : Nibble) (p : Bool) : (s.skipIfKey j x p).v = s.v := by
  unfold State.skipIfKey; split <;> simp
@[simp] theorem State.skipIfKey_i (j : Instr) (x : Nibble) (p : Bool) : (s.skipIfKey j x p).i = s.i := by
  unfold State.skipIfKey; split <;> simp
@[simp] theorem State.skipIfKey_stack (j : Instr) (x : Nibble) (p : Bool) : (s.skipIfKey j x p).stack = s.stack := by
  unfold State.skipIfKey; split <;> simp
@[simp] theorem State.skipIfKey_sp (j : Instr) (x : Nibble) (p : Bool) : (s.skipIfKey j x p).sp = s.sp := by
  unfold State.skipIfKey; split <;> simp
@[simp] theorem State.skipIfKey_dt (j : Instr) (x : Nibble) (p : Bool) : (s.skipIfKey j x p).dt = s.dt := by
  unfold State.skipIfKey; split <;> simp
@[simp] theorem State.skipIfKey_st (j : Instr) (x : Nibble) (p : Bool) : (s.skipIfKey j x p).st = s.st := by
  unfold State.skipIfKey; split <;> simp
@[simp] theorem State.skipIfKey_display (j : Instr) (x : Nibble) (p : Bool) : (s.skipIfKey j x p).display = s.display := by
  unfold State.skipIfKey; split <;> simp
@[simp] theorem State.skipIfKey_key (j : Instr) (x : Nibble) (p : Bool) : (s.skipIfKey j x p).key = s.key := by
  unfold State.skipIfKey; split <;> simp
@[simp] theorem State.skipIfKey_mem (j : Instr) (x : Nibble) (p : Bool) : (s.skipIfKey j x p).mem = s.mem := by
  unfold State.skipIfKey; split <;> simp
@[simp] theorem State.skipIfKey_kwSnap (j : Instr) (x : Nibble) (p : Bool) : (s.skipIfKey j x p).kwSnap = s.kwSnap := by
  unfold State.skipIfKey; split <;> simp
@[simp] theorem State.skipIfKey_params (j : Instr) (x : Nibble) (p : Bool) : (s.skipIfKey j x p).params = s.params := by
  unfold State.skipIfKey; split <;> simp
@[simp] theorem State.skipIfKey_agenda (j : Instr) (x : Nibble) (p : Bool) : (s.skipIfKey j x p).agenda = s.agenda := by
  unfold State.skipIfKey; split <;> simp
@[simp] theorem State.skipIfKey_schedule (j : Instr) (x : Nibble) (p : Bool) : (s.skipIfKey j x p).schedule = s.schedule := by
  unfold State.skipIfKey; split <;> simp
@[simp] theorem State.skipIfKey_randFeed (j : Instr) (x : Nibble) (p : Bool) : (s.skipIfKey j x p).randFeed = s.randFeed := by
  unfold State.skipIfKey; split <;> simp
@[simp] theorem State.skipIfKey_draws (j : Instr) (x : Nibble) (p : Bool) : (s.skipIfKey j x p).draws = s.draws := by
  unfold State.skipIfKey; split <;> simp
@[simp] theorem State.skipIfKey_loadOpen (j : Instr) (x : Nibble) (p : Bool) : (s.skipIfKey j x p).loadOpen = s.loadOpen := by
  unfold State.skipIfKey; split <;> simp
@[simp] theorem State.skipIfKey_reg (j : Instr) (x : Nibble) (p : Bool) (r : Nibble) : (s.skipIfKey j x p).reg r = s.reg r := by
  unfold State.skipIfKey; split <;> simp

@[simp] theorem State.skipIf_events (c : Bool) : (s.skipIf c).events = {} := by
  unfold State.skipIf; split <;> rfl

/-- Where a skip leaves pc: fa + 4 or fa + 2 (42_skips R200). -/
@[simp] theorem State.skipIf_pc (c : Bool) : (s.skipIf c).pc = if c then s.nextPc + 2 else s.nextPc := by
  unfold State.skipIf; split <;> rfl

end Sys2Proof.Machine
end

