-- ==== Sys2Proof/Laws/Registers.lean ====
section
/-! SUPPORT. Reading a register after each operation that writes registers, the stack's push and pop, and the key skip. -/

namespace Sys2Proof.Machine

theorem State.reg_setReg (s : State) (x r : Nibble) (b : Byte) :
    (s.setReg x b).reg r = if r = x then b else s.reg r := by
  unfold State.reg State.setReg
  by_cases h : r = x
  · subst h; simp
  · have : x.toNat ≠ r.toNat := fun e => h (BitVec.eq_of_toNat_eq e.symm)
    simp [h, Vector.getElem_set_ne, this]

@[simp] theorem State.reg_setReg_same (s : State) (x : Nibble) (b : Byte) : (s.setReg x b).reg x = b := by
  rw [State.reg_setReg, if_pos rfl]

theorem State.reg_setReg_ne (s : State) {x r : Nibble} (b : Byte) (h : r ≠ x) :
    (s.setReg x b).reg r = s.reg r := by rw [State.reg_setReg, if_neg h]

/-- A result and then a flag: VF holds the flag, V[x] the result unless x is F (43_alu R221). -/
theorem State.reg_setRegFlag (s : State) (x r : Nibble) (b f : Byte) :
    (s.setRegFlag x b f).reg r = if r = flagReg then f else if r = x then b else s.reg r := by
  unfold State.setRegFlag
  rw [State.reg_setReg, State.reg_setReg]

@[simp] theorem State.reg_setRegFlag_flag (s : State) (x : Nibble) (b f : Byte) :
    (s.setRegFlag x b f).reg flagReg = f := by rw [State.reg_setRegFlag, if_pos rfl]

theorem State.reg_setRegFlag_result (s : State) {x : Nibble} (b f : Byte) (h : x ≠ flagReg) :
    (s.setRegFlag x b f).reg x = b := by rw [State.reg_setRegFlag, if_neg h, if_pos rfl]

theorem State.reg_loadRegs (s : State) (x r : Nibble) (a : Nat) :
    (s.loadRegs x a).reg r = if r.toNat ≤ x.toNat then Memory.read s.mem (a + r.toNat) else s.reg r := by
  simp [State.reg, State.loadRegs]

@[simp] theorem State.regsUpTo_length (s : State) (x : Nibble) : (s.regsUpTo x).length = x.toNat + 1 := by
  have := x.isLt
  simp [State.regsUpTo]; omega

theorem State.regsUpTo_getD (s : State) (x r : Nibble) (h : r.toNat ≤ x.toNat) :
    (s.regsUpTo x).getD r.toNat 0 = s.reg r := by
  have := x.isLt
  have := r.isLt
  rw [List.getD_eq_getElem _ _ (by rw [State.regsUpTo_length]; omega)]
  simp [State.regsUpTo, State.reg]

/-- What a push does (10_state R40): below depth 16 the entry at SP is written and SP is one more, nothing else. -/
theorem State.push_eq_some {s t : State} {w : Word} :
    s.push w = some t ↔ ∃ h : s.sp.val < 16,
      t = { s with stack := s.stack.set s.sp.val w, sp := ⟨s.sp.val + 1, by omega⟩ } := by
  unfold State.push; split <;> simp_all [eq_comm]

theorem State.push_eq_none {s : State} {w : Word} : s.push w = none ↔ s.sp.val = 16 := by
  unfold State.push
  split
  · rename_i h; simp only [reduceCtorEq, false_iff]; omega
  · have := s.sp.isLt; simp only [true_iff]; omega

/-- What a pop does (10_state R41): above depth 0 SP is one less and the entry there is the value, nothing else. -/
theorem State.pop_eq_some {s t : State} {w : Word} :
    s.pop = some (t, w) ↔ ∃ h : 0 < s.sp.val,
      t = { s with sp := ⟨s.sp.val - 1, by omega⟩ } ∧ w = s.stack[s.sp.val - 1] := by
  unfold State.pop; split <;> simp_all [eq_comm]

theorem State.pop_eq_none {s : State} : s.pop = none ↔ s.sp.val = 0 := by
  unfold State.pop
  split
  · rename_i h; simp only [reduceCtorEq, false_iff]; omega
  · simp only [true_iff]; omega

/-- The two ways a key skip goes (42_skips R205 to R207): the key index error, or a skip on the key's state. -/
theorem State.skipIfKey_cases (s : State) (i : Instr) (x : Nibble) (pressed : Bool) :
    (keyIndex s.params.keyIndexPolicy (s.reg x) = none ∧
      s.skipIfKey i x pressed = s.raiseBy i .keyIndexOutOfRange none) ∨
    (∃ k, keyIndex s.params.keyIndexPolicy (s.reg x) = some k ∧
      s.skipIfKey i x pressed = s.skipIf (s.keyPressed k == pressed)) := by
  unfold State.skipIfKey
  cases h : keyIndex s.params.keyIndexPolicy (s.reg x) with
  | none => exact .inl ⟨rfl, rfl⟩
  | some k => exact .inr ⟨k, rfl, rfl⟩

end Sys2Proof.Machine
end

