-- ==== Sys2Proof/Laws/Step.lean ====
section
/-! SUPPORT. What one step can do: one case for each agent's move, one for each outcome of a core cycle, and what the shared state operations do; later proofs cite these instead of unfolding step. And what a fair run gives (46_timers_keys R320). -/

namespace Sys2Proof.Machine

/-- A step is the due move on the state without it. -/
theorem step_eq (s : State) : step s = s.takeMove.makeMove s.dueMove := rfl

/-- Where the core's move is due, the step is a core step. -/
theorem step_of_core {s : State} (h : s.dueMove = .core) : step s = s.takeMove.coreStep := by
  rw [step_eq, h]; rfl

/-- Where the agenda names a move first, that move is due. -/
theorem State.dueMove_of_agenda {s : State} {m : Move} {rest : List Move} (h : s.agenda = m :: rest) :
    s.dueMove = m := by rw [State.dueMove, h]

/-- Then the schedule is left as it stands. -/
theorem State.restSchedule_of_agenda {s : State} {m : Move} {rest : List Move} (h : s.agenda = m :: rest) :
    s.restSchedule = s.schedule := by rw [State.restSchedule, h]

/-- Where the agenda is empty, the schedule's first move is due, and it moves on. -/
theorem State.dueMove_of_empty {s : State} (h : s.agenda = []) : s.dueMove = nextMove s.schedule := by
  rw [State.dueMove, h]
theorem State.restSchedule_of_empty {s : State} (h : s.agenda = []) : s.restSchedule = laterMoves s.schedule := by
  rw [State.restSchedule, h]

/-- A core step in Running is a Running cycle after the start of the cycle. -/
theorem State.coreStep_running {s : State} (h : s.runState = .running) : s.coreStep = s.beginCycle.runCycle := by
  unfold State.coreStep; rw [h]

/-- A core step in WaitingForKey is a waiting cycle after the start of the cycle. -/
theorem State.coreStep_waiting {s : State} (h : s.runState = .waitingForKey) :
    s.coreStep = s.beginCycle.waitCycle := by
  unfold State.coreStep; rw [h]

/-- In Halted there is no core step. -/
theorem State.coreStep_halted {s : State} (h : s.runState = .halted) : s.coreStep = .fault .coreHalted := by
  unfold State.coreStep; rw [h]

/-- The core's move in each run_state, from the state before the step. -/
theorem step_running {s : State} (hd : s.dueMove = .core) (hr : s.runState = .running) :
    step s = s.takeMove.beginCycle.runCycle :=
  (step_of_core hd).trans (State.coreStep_running (s := s.takeMove) hr)
theorem step_waiting {s : State} (hd : s.dueMove = .core) (hr : s.runState = .waitingForKey) :
    step s = s.takeMove.beginCycle.waitCycle :=
  (step_of_core hd).trans (State.coreStep_waiting (s := s.takeMove) hr)
theorem step_halted {s : State} (hd : s.dueMove = .core) (hr : s.runState = .halted) :
    step s = .fault .coreHalted :=
  (step_of_core hd).trans (State.coreStep_halted (s := s.takeMove) hr)

/-- Neither taking the move nor starting the cycle changes what is fetched. -/
@[simp] theorem State.takeMove_fetch (s : State) : s.takeMove.fetch = s.fetch := rfl
@[simp] theorem State.beginCycle_fetch (s : State) : s.beginCycle.fetch = s.fetch := rfl

/-- What a fetch answers (40_cycle_driver R142). -/
theorem State.fetch_cases (s : State) :
    (s.pc.toNat + 2 ≤ memSize ∧
      s.fetch = .ok (wordOfBytes (Memory.read s.mem s.pc.toNat) (Memory.read s.mem (s.pc.toNat + 1)))) ∨
    (memSize < s.pc.toNat + 2 ∧ s.fetch = .error (max s.pc.toNat memSize)) := by
  unfold State.fetch lowestOob
  by_cases h : s.pc.toNat + 2 ≤ memSize
  · exact .inl ⟨h, by simp [h]⟩
  · exact .inr ⟨by omega, by simp [h]⟩

/-- The three ways a Running core cycle goes (40_cycle_driver R152). -/
theorem State.runCycle_cases (s : State) :
    (∃ a, s.fetch = .error a ∧ s.runCycle = .next (s.fetchError a)) ∨
    (∃ w i, s.fetch = .ok w ∧ decode w = .instr i ∧ s.runCycle = exec i s) ∨
    (∃ w w', s.fetch = .ok w ∧ decode w = .unknown w' ∧ s.runCycle = .next (s.execUnknown w')) := by
  unfold State.runCycle
  cases hf : s.fetch with
  | error a => exact .inl ⟨a, rfl, rfl⟩
  | ok w =>
    cases hd : decode w with
    | instr i => exact .inr (.inl ⟨w, i, rfl, hd, by simp only [hd]⟩)
    | unknown w' => exact .inr (.inr ⟨w, w', rfl, hd, by simp only [hd]⟩)

/-- The two ways a WaitingForKey core cycle goes (40_cycle_driver R152). -/
theorem State.waitCycle_cases (s : State) :
    (∃ a, s.fetch = .error a ∧ s.waitCycle = .next (s.fetchError a)) ∨
    (∃ w, s.fetch = .ok w ∧ s.waitCycle = .next (s.pollStep (xField w))) := by
  unfold State.waitCycle
  cases hf : s.fetch with
  | error a => exact .inl ⟨a, rfl, rfl⟩
  | ok w => exact .inr ⟨w, rfl, rfl⟩

/-- The two ways a poll step goes (46_timers_keys R315). -/
theorem State.pollStep_cases (s : State) (x : Nibble) :
    (∃ k, lowestKey s.newlyPressed = some k ∧
      s.pollStep x = { s.advance.setReg x (BitVec.ofNat 8 k) with runState := .running }) ∨
    (lowestKey s.newlyPressed = none ∧ s.pollStep x = { s with kwSnap := s.key, events := { keyWait := true } }) := by
  unfold State.pollStep
  cases h : lowestKey s.newlyPressed with
  | some k => exact .inl ⟨k, rfl, rfl⟩
  | none => exact .inr ⟨rfl, rfl⟩

/-- THE STEP INVERSION: if step answers t, then t comes from a core cycle or from another agent's move, made on s
with the due move taken off the agenda. -/
theorem step_cases {s t : State} (h : step s = .next t) :
    (s.runState = .running ∧ s.takeMove.beginCycle.runCycle = .next t) ∨
    (s.runState = .waitingForKey ∧ s.takeMove.beginCycle.waitCycle = .next t) ∨
    t = s.takeMove.tick ∨ (∃ k p, t = s.takeMove.setKey k p) ∨ t = s.takeMove.stop ∨
    (∃ bs, s.loadOpen = true ∧ s.runState = .running ∧ t = s.takeMove.load bs) := by
  rw [step_eq] at h
  cases hm : s.dueMove with
  | core =>
    rw [hm] at h
    change s.takeMove.coreStep = _ at h
    cases hr : s.runState with
    | running => exact .inl ⟨rfl, (State.coreStep_running (s := s.takeMove) hr).symm.trans h⟩
    | waitingForKey => exact .inr (.inl ⟨rfl, (State.coreStep_waiting (s := s.takeMove) hr).symm.trans h⟩)
    | halted => rw [State.coreStep_halted (s := s.takeMove) hr] at h; cases h
  | tick =>
    rw [hm] at h
    cases h
    exact .inr (.inr (.inl rfl))
  | setKey k p =>
    rw [hm] at h
    cases h
    exact .inr (.inr (.inr (.inl ⟨k, p, rfl⟩)))
  | stop =>
    rw [hm] at h
    cases h
    exact .inr (.inr (.inr (.inr (.inl rfl))))
  | load bs =>
    rw [hm] at h
    change s.takeMove.loadMove bs = _ at h
    unfold State.loadMove at h
    split at h
    · rename_i hl
      simp only [State.mayLoad, Bool.and_eq_true, beq_iff_eq, State.takeMove_loadOpen, State.takeMove_runState] at hl
      cases h
      exact .inr (.inr (.inr (.inr (.inr ⟨bs, hl.1, hl.2, rfl⟩))))
    · cases h

/-- What a Running cycle that answers t did: a failed fetch, the decoded instruction, or an unknown word. -/
theorem State.runCycle_next {s t : State} (h : s.runCycle = .next t) :
    (∃ a, t = s.fetchError a) ∨ (∃ w i, s.fetch = .ok w ∧ decode w = .instr i ∧ exec i s = .next t) ∨
    (∃ w, t = s.execUnknown w) := by
  rcases s.runCycle_cases with ⟨a, -, e⟩ | ⟨w, i, hf, hd, e⟩ | ⟨w, w', -, -, e⟩
  · rw [e] at h; cases h; exact .inl ⟨a, rfl⟩
  · rw [e] at h; exact .inr (.inl ⟨w, i, hf, hd, h⟩)
  · rw [e] at h; cases h; exact .inr (.inr ⟨w', rfl⟩)

/-- What a waiting cycle that answers t did: a failed fetch or the poll step. -/
theorem State.waitCycle_next {s t : State} (h : s.waitCycle = .next t) :
    (∃ a, t = s.fetchError a) ∨ (∃ w, s.fetch = .ok w ∧ t = s.pollStep (xField w)) := by
  rcases s.waitCycle_cases with ⟨a, -, e⟩ | ⟨w, hf, e⟩
  · rw [e] at h; cases h; exact .inl ⟨a, rfl⟩
  · rw [e] at h; cases h; exact .inr ⟨w, hf, rfl⟩

/-- In Halted a tick and a stop change only the result set (46_timers_keys R319; log 14). -/
theorem State.tick_halted {s : State} (h : s.runState = .halted) : s.tick = s.emit {} := by
  unfold State.tick; rw [h]
theorem State.stop_halted {s : State} (h : s.runState = .halted) : s.stop = s.emit {} := by
  unfold State.stop; rw [h]

/-- Outside Halted a tick counts both timers down and a stop halts without an error. -/
theorem State.tick_live {s : State} (h : s.runState ≠ .halted) :
    s.tick = { s with dt := countDown s.dt, st := countDown s.st, events := { toneOff := s.st == 1 } } := by
  unfold State.tick; split <;> simp_all
theorem State.stop_live {s : State} (h : s.runState ≠ .halted) : s.stop = s.enterHalted none := by
  unfold State.stop; split <;> simp_all

/-- A load changes memory inside the program area and the sequencer's state, or halts with ProgramTooLarge. -/
theorem State.load_cases (s : State) (bs : List Byte) :
    (bs.length ≤ maxProg ∧ s.load bs =
      { s with mem := Memory.writeBytes s.mem progBase bs, runState := .running, loadOpen := false, events := {} }) ∨
    (maxProg < bs.length ∧ s.load bs = { s.enterHalted (some programTooLarge) with loadOpen := false }) := by
  unfold State.load
  by_cases h : bs.length ≤ maxProg
  · exact .inl ⟨h, if_pos h⟩
  · exact .inr ⟨by omega, if_neg h⟩

/-- A timer counts down by one and stops at 0 (10_state R42). -/
theorem countDown_toNat (b : Byte) : (countDown b).toNat = b.toNat - 1 := by
  unfold countDown
  by_cases h : b = 0
  · subst h; rfl
  · rw [if_neg h]
    have : b.toNat ≠ 0 := fun e => h (BitVec.eq_of_toNat_eq e)
    exact BitVec.toNat_sub_of_le (by rw [BitVec.le_def]; show 1 ≤ b.toNat; omega)

/-- A tick that is due outside Halted counts the delay timer down (46_timers_keys R318). -/
theorem step_tick_dt {s t : State} (hd : s.dueMove = .tick) (hr : s.runState ≠ .halted) (h : step s = .next t) :
    t.dt.toNat = s.dt.toNat - 1 := by
  rw [step_eq, hd] at h
  cases h
  rw [State.tick_live (s := s.takeMove) hr]
  exact countDown_toNat s.dt

/-- The fairness premise at work (46_timers_keys R320): in a fair run that never halts and never raises DT, DT
comes to 0. -/
theorem fairRun_dt_expires {r : Nat → State} (hrun : isRun r) (hfair : fairRun r)
    (hlive : ∀ n, (r n).runState ≠ .halted) (hdt : ∀ n, (r (n + 1)).dt.toNat ≤ (r n).dt.toNat) :
    ∃ n, (r n).dt = 0 := by
  have hmono : ∀ n k, (r (n + k)).dt.toNat ≤ (r n).dt.toNat := by
    intro n k
    induction k with
    | zero => exact le_refl _
    | succ k ih => exact le_trans (hdt (n + k)) ih
  have hdown : ∀ d n, (r n).dt.toNat ≤ d → ∃ m, (r m).dt.toNat = 0 := by
    intro d
    induction d with
    | zero => exact fun n h => ⟨n, by omega⟩
    | succ d ih =>
      intro n h
      obtain ⟨m, hm, htick⟩ := hfair n
      have h1 := step_tick_dt htick (hlive m) (hrun m)
      have h2 := hmono n (m - n)
      rw [Nat.add_sub_cancel' hm] at h2
      exact ih (m + 1) (by omega)
  obtain ⟨m, hm⟩ := hdown _ 0 (le_refl _)
  exact ⟨m, BitVec.eq_of_toNat_eq hm⟩

end Sys2Proof.Machine
end

