-- ==== Sys2Proof/Tests/Slice0.lean ====
section
/-! SUPPORT. Tests of the model against the vectors of 95_test_vectors, and a witness for each statement that has hypotheses. -/

namespace Sys2Proof.Tests

open Sys2Proof Sys2Proof.Machine

/-! ### Helpers -/

/-- The next state of an outcome, if it is one. -/
def nextOf (r : Result) : Option State :=
  match r with
  | .next t => some t
  | .fault _ => none
  | .refused _ => none

/-- One step of the word w placed at the pc of s. -/
def runWord (s : State) (w : Nat) : Option State := nextOf (step (s.withFetchWord 16 w))

/-- s with registers set. -/
def withRegs (s : State) (l : List (Nibble × Byte)) : State := l.foldl (fun t p => t.setReg p.1 p.2) s

/-- s with bytes stored from a. -/
def withBytes (s : State) (a : Nat) (l : List Byte) : State := s.storeBytes a l

/-- The reset state with registers set. -/
def regsAt (l : List (Nibble × Byte)) : State := withRegs State.reset l

/-- What a HALT result of 95_test_vectors lists: the pc, the error record and the events. -/
def haltView (t : State) : Word × RunState × Option ErrorRecord × ResultSet := (t.pc, t.runState, t.err, t.events)

/-- HALT(kind, pc, opcode, addr) of 95_test_vectors. -/
def halt (k : ErrorKind) (pc : Word) (opcode : Option Word) (addr : Option Nat) :
    Option (Word × RunState × Option ErrorRecord × ResultSet) :=
  some (pc, .halted, some { kind := k, pc := pc, opcode := opcode, addr := addr }, { halted := true })

/-- The pixels that are on, in rows below h and columns below w. -/
def pixelsOn (d : Display) (w h : Nat) : List (Nat × Nat) :=
  ((List.range h).flatMap fun y => (List.range w).map fun x => (x, y)).filter fun p => Display.pixel d p.1 p.2

/-! ### Reset -/

set_option maxRecDepth 20000 in
/-- State.reset is the initialisation with the defaults (log 7): the explicit font write lists nothing. -/
theorem test_reset_memory : (State.initWith defaultParams defaultFont).mem = State.reset.mem := by decide

/-! ### Well-formedness -/

theorem test_wellFormed_refuses_cls_word : (Instr.sys 0x0E0).wellFormed = false := by decide
theorem test_wellFormed_refuses_ret_word : (Instr.sys 0x0EE).wellFormed = false := by decide
theorem test_wellFormed_takes_sys : (Instr.sys 0x0E1).wellFormed = true := by decide

/-! ### Decoding: 95_test_vectors 2.1, each word written out from 30_encoding R110 -/

theorem test_decode_group0 :
    decodeTableWord 16 0b0000000011100000 = some .cls ∧
    decodeTableWord 16 0b0000000011101110 = some .ret ∧
    decodeTableWord 16 0b0000000000000000 = some (.sys 0x000) ∧
    decodeTableWord 16 0b0000000011100001 = some (.sys 0x0E1) ∧
    decodeTableWord 16 0b0000000011111111 = some (.sys 0x0FF) ∧
    decodeTableWord 16 0b0000000100100011 = some (.sys 0x123) := by decide

theorem test_decode_addresses :
    decodeTableWord 16 0b0001101010111100 = some (.jp 0xABC) ∧
    decodeTableWord 16 0b0010111111111111 = some (.call 0xFFF) ∧
    decodeTableWord 16 0b1010000000000000 = some (.ldIAddr 0x000) ∧
    decodeTableWord 16 0b1011000100100011 = some (.jpV0Addr 0x123) := by decide

theorem test_decode_skips :
    decodeTableWord 16 0b0011101001111111 = some (.seVxByte 0xA 0x7F) ∧
    decodeTableWord 16 0b0100101100000000 = some (.sneVxByte 0xB 0x00) ∧
    decodeTableWord 16 0b0101000100100000 = some (.seVxVy 1 2) ∧
    decodeTableWord 16 0b1001000100100000 = some (.sneVxVy 1 2) ∧
    decodeTableWord 16 0b1110010110011110 = some (.skpVx 5) ∧
    decodeTableWord 16 0b1110010110100001 = some (.sknpVx 5) := by decide

theorem test_decode_byte_forms :
    decodeTableWord 16 0b0110000000001010 = some (.ldVxByte 0 0x0A) ∧
    decodeTableWord 16 0b0111111111111111 = some (.addVxByte 0xF 0xFF) ∧
    decodeTableWord 16 0b1100000011111111 = some (.rndVxByte 0 0xFF) := by decide

theorem test_decode_group8 :
    decodeTableWord 16 0b1000000100100000 = some (.ldVxVy 1 2) ∧
    decodeTableWord 16 0b1000000100100001 = some (.orVxVy 1 2) ∧
    decodeTableWord 16 0b1000000100100010 = some (.andVxVy 1 2) ∧
    decodeTableWord 16 0b1000000100100011 = some (.xorVxVy 1 2) ∧
    decodeTableWord 16 0b1000000100100100 = some (.addVxVy 1 2) ∧
    decodeTableWord 16 0b1000000100100101 = some (.subVxVy 1 2) ∧
    decodeTableWord 16 0b1000000100100110 = some (.shrVxVy 1 2) ∧
    decodeTableWord 16 0b1000000100100111 = some (.subnVxVy 1 2) ∧
    decodeTableWord 16 0b1000000100101110 = some (.shlVxVy 1 2) := by decide

theorem test_decode_draw :
    decodeTableWord 16 0b1101000000010101 = some (.drwVxVyN 0 1 5) ∧
    decodeTableWord 16 0b1101000000010000 = some (.drwVxVyN 0 1 0) := by decide

theorem test_decode_groupF :
    decodeTableWord 16 0b1111001000000111 = some (.ldVxDt 2) ∧
    decodeTableWord 16 0b1111001000001010 = some (.ldVxK 2) ∧
    decodeTableWord 16 0b1111001000010101 = some (.ldDtVx 2) ∧
    decodeTableWord 16 0b1111001000011000 = some (.ldStVx 2) ∧
    decodeTableWord 16 0b1111001000011110 = some (.addIVx 2) ∧
    decodeTableWord 16 0b1111001000101001 = some (.ldFVx 2) ∧
    decodeTableWord 16 0b1111001000110011 = some (.ldBVx 2) ∧
    decodeTableWord 16 0b1111001001010101 = some (.ldMemVx 2) ∧
    decodeTableWord 16 0b1111001001100101 = some (.ldVxMem 2) := by decide

theorem test_decode_unknown :
    ([0x5121, 0x8128, 0x8129, 0x812A, 0x812B, 0x812C, 0x812D, 0x812F, 0x912F, 0xE5A2, 0xF030, 0xF075, 0xF000].map
      fun w => decodeTableWord 16 w) = List.replicate 13 none := by decide

/-- The bytes in memory order: the high byte is the first (20_memory R73). -/
theorem test_decode_bytes :
    decodeBytes [0x12, 0x34, 0x60] = some (.instr (.jp 0x234), [0x60]) ∧ decodeBytes [0x12] = none := by decide

/-! ### The cycle and control flow: 95_test_vectors 2.2 and 2.3 -/

/-- The fetch is big-endian and runs at an odd pc. -/
theorem test_fetch_big_endian_odd_pc :
    (nextOf (step { withBytes State.reset 0x201 [0x60, 0x2A] with pc := 0x201 })).map
      (fun t => (t.reg 0, t.pc)) = some (0x2A, 0x203) := by decide

/-- The last legal fetch address. -/
theorem test_fetch_at_top_of_memory :
    (nextOf (step { withBytes State.reset 0xFFE [0x70, 0x01] with pc := 0xFFE })).map
      (fun t => (t.reg 0, t.pc)) = some (0x01, 0x1000) := by decide

/-- The second byte alone is out of range. -/
theorem test_fetch_second_byte_out_of_range :
    (nextOf (step { State.reset with pc := 0xFFF })).map haltView =
      halt .memoryOutOfBounds 0xFFF none (some 0x1000) := by decide

theorem test_fetch_above_memory :
    (nextOf (step { State.reset with pc := 0x10FE })).map haltView =
      halt .memoryOutOfBounds 0x10FE none (some 0x10FE) := by decide

theorem test_unknown_word : (runWord State.reset 0x8128).map haltView =
    halt .unknownOpcode 0x200 (some 0x8128) none := by decide

theorem test_sys_fault : (runWord State.reset 0x0123).map haltView =
    halt .unknownOpcode 0x200 (some 0x0123) none := by decide

theorem test_sys_nop :
    (runWord { State.reset with params := { defaultParams with sysPolicy := .nop } } 0x0123).map
      (fun t => (t.pc, t.runState)) = some (0x202, .running) := by decide

theorem test_jp : (runWord State.reset 0x1FFF).map (fun t => t.pc) = some 0xFFF := by decide

theorem test_jp_v0_not_masked : (runWord (regsAt [(0, 0xFF)]) 0xBFFF).map (fun t => t.pc) = some 0x10FE := by decide

theorem test_jp_v0 : (runWord (regsAt [(0, 0x10), (3, 0x77)]) 0xB300).map (fun t => t.pc) = some 0x310 := by decide

theorem test_call_pushes :
    (runWord { State.reset with pc := 0x202, sp := 15 } 0x2300).map (fun t => (t.stack[15], t.sp, t.pc)) =
      some (0x204, 16, 0x300) := by decide

theorem test_call_overflow : (runWord { State.reset with pc := 0x202, sp := 16 } 0x2300).map haltView =
    halt .stackOverflow 0x202 (some 0x2300) none := by decide

theorem test_ret_pops :
    (runWord { State.reset with pc := 0x500, sp := 2, stack := (State.reset.stack.set 0 0x204).set 1 0x402 }
      0x00EE).map (fun t => (t.sp, t.pc)) = some (1, 0x402) := by decide

theorem test_ret_underflow : (runWord State.reset 0x00EE).map haltView =
    halt .stackUnderflow 0x200 (some 0x00EE) none := by decide

/-! ### Skips: 95_test_vectors 2.4 -/

theorem test_se_byte :
    (runWord (regsAt [(3, 0x05)]) 0x3305).map (fun t => t.pc) = some 0x204 ∧
    (runWord (regsAt [(3, 0x06)]) 0x3305).map (fun t => t.pc) = some 0x202 := by decide

theorem test_sne_byte :
    (runWord (regsAt [(3, 0x05)]) 0x4305).map (fun t => t.pc) = some 0x202 ∧
    (runWord (regsAt [(3, 0x06)]) 0x4305).map (fun t => t.pc) = some 0x204 := by decide

theorem test_se_register :
    (runWord (regsAt [(1, 0x7F), (2, 0x7F)]) 0x5120).map (fun t => t.pc) = some 0x204 ∧
    (runWord (regsAt [(1, 0x01), (2, 0x02)]) 0x5120).map (fun t => t.pc) = some 0x202 := by decide

theorem test_sne_register :
    (runWord (regsAt [(1, 0x01), (2, 0x02)]) 0x9120).map (fun t => t.pc) = some 0x204 ∧
    (runWord (regsAt [(1, 0x01)]) 0x9110).map (fun t => t.pc) = some 0x202 := by decide

theorem test_skp :
    (runWord { regsAt [(5, 0x0A)] with key := 0x0400 } 0xE59E).map (fun t => t.pc) = some 0x204 ∧
    (runWord (regsAt [(5, 0x0A)]) 0xE59E).map (fun t => t.pc) = some 0x202 := by decide

theorem test_sknp :
    (runWord { regsAt [(5, 0x0A)] with key := 0xFBFF } 0xE5A1).map (fun t => t.pc) = some 0x204 ∧
    (runWord { regsAt [(5, 0x0A)] with key := 0x0400 } 0xE5A1).map (fun t => t.pc) = some 0x202 := by decide

theorem test_skp_key_index_fault : (runWord (regsAt [(5, 0x1A)]) 0xE59E).map haltView =
    halt .keyIndexOutOfRange 0x200 (some 0xE59E) none := by decide

theorem test_skp_key_index_low_nibble :
    (runWord { regsAt [(5, 0x1A)] with key := 0x0400, params := { defaultParams with keyIndexPolicy := .lowNibble } }
      0xE59E).map (fun t => t.pc) = some 0x204 := by decide

/-! ### ALU: 95_test_vectors 2.5 -/

theorem test_ld_byte : (runWord State.reset 0x60FF).map (fun t => (t.reg 0, t.pc)) = some (0xFF, 0x202) := by decide

theorem test_add_byte_no_carry :
    (runWord (regsAt [(1, 0xFE)]) 0x7103).map (fun t => (t.reg 1, t.reg 0xF)) = some (0x01, 0x00) := by decide

theorem test_ld_register : (runWord (regsAt [(2, 0x33)]) 0x8120).map (fun t => (t.reg 1, t.reg 2)) =
    some (0x33, 0x33) := by decide

theorem test_or_leaves_vf :
    (runWord (regsAt [(0, 0xF0), (1, 0x0F), (0xF, 0x01)]) 0x8011).map (fun t => (t.reg 0, t.reg 0xF)) =
      some (0xFF, 0x01) := by decide

theorem test_and : (runWord (regsAt [(0, 0xF0), (1, 0x3C)]) 0x8012).map (fun t => t.reg 0) = some 0x30 := by decide

theorem test_xor : (runWord (regsAt [(0, 0xF0), (1, 0x3C)]) 0x8013).map (fun t => t.reg 0) = some 0xCC := by decide

theorem test_add_carry :
    (runWord (regsAt [(0, 0xFF), (1, 0xFF)]) 0x8014).map (fun t => (t.reg 0, t.reg 0xF)) = some (0xFE, 1) ∧
    (runWord (regsAt [(0, 0x7F), (1, 0x80)]) 0x8014).map (fun t => (t.reg 0, t.reg 0xF)) = some (0xFF, 0) := by decide

theorem test_add_flag_over_result :
    (runWord (regsAt [(0xF, 0xFF), (1, 0x01)]) 0x8F14).map (fun t => t.reg 0xF) = some 1 ∧
    (runWord (regsAt [(0, 0x01), (0xF, 0x01)]) 0x80F4).map (fun t => (t.reg 0, t.reg 0xF)) = some (2, 0) := by decide

/-- The same subtraction under each SUB_VF_POLARITY. -/
theorem test_sub :
    (runWord (regsAt [(0, 0x05), (1, 0x07)]) 0x8015).map (fun t => (t.reg 0, t.reg 0xF)) = some (0xFE, 1) ∧
    (runWord { regsAt [(0, 0x07), (1, 0x07)] with params := { defaultParams with subVfPolarity := .notBorrow } }
      0x8015).map (fun t => (t.reg 0, t.reg 0xF)) = some (0x00, 1) := by decide

theorem test_subn :
    (runWord (regsAt [(0, 0x05), (1, 0x07)]) 0x8017).map (fun t => (t.reg 0, t.reg 0xF)) = some (0x02, 0) ∧
    (runWord { regsAt [(0, 0x07), (1, 0x05)] with params := { defaultParams with subVfPolarity := .notBorrow } }
      0x8017).map (fun t => (t.reg 0, t.reg 0xF)) = some (0xFE, 0) := by decide

/-- The same shift under each SHIFT_SRC. -/
theorem test_shr :
    (runWord (regsAt [(0, 0xFE), (1, 0x07)]) 0x8016).map (fun t => (t.reg 0, t.reg 0xF)) = some (0x7F, 0) ∧
    (runWord { regsAt [(0, 0xFE), (1, 0x07)] with params := { defaultParams with shiftSrc := .vy } }
      0x8016).map (fun t => (t.reg 0, t.reg 0xF, t.reg 1)) = some (0x03, 1, 0x07) := by decide

theorem test_shl :
    (runWord (regsAt [(0, 0x81)]) 0x800E).map (fun t => (t.reg 0, t.reg 0xF)) = some (0x02, 1) ∧
    (runWord (regsAt [(0xF, 0x81)]) 0x8FFE).map (fun t => t.reg 0xF) = some 1 := by decide

theorem test_rnd :
    (runWord { State.reset with randFeed := [0xAB, 0x5C] } 0xC30F).map
      (fun t => (t.reg 3, t.randFeed, t.draws)) = some (0x0B, [0x5C], 1) := by decide

/-- A draw is taken for NN = 0 too. -/
theorem test_rnd_draws_for_zero_mask :
    (runWord { State.reset with randFeed := [0xAB] } 0xC300).map
      (fun t => (t.reg 3, t.randFeed, t.draws)) = some (0x00, [], 1) := by decide

/-! ### Index register and memory: 95_test_vectors 2.6 -/

theorem test_ld_i : (runWord State.reset 0xA123).map (fun t => t.i) = some 0x0123 := by decide

theorem test_add_i :
    (runWord { regsAt [(2, 0x01)] with i := 0x0FFF } 0xF21E).map (fun t => (t.i, t.reg 0xF)) = some (0x1000, 0) ∧
    (runWord { regsAt [(2, 0x02)] with i := 0xFFFF } 0xF21E).map (fun t => t.i) = some 0x0001 := by decide

theorem test_ld_f :
    (runWord (regsAt [(0, 0xFF)]) 0xF029).map (fun t => t.i) = some 0x4FB ∧
    (runWord { regsAt [(0, 0x1A)] with params := { defaultParams with fx29Index := .lowNibble } }
      0xF029).map (fun t => t.i) = some 0x032 := by decide

theorem test_bcd :
    (runWord { regsAt [(5, 0xEA)] with i := 0xFFD } 0xF533).map
      (fun t => (Memory.readBytes t.mem 0xFFD 3, t.i)) = some ([2, 3, 4], 0xFFD) := by decide

theorem test_bcd_out_of_range : (runWord { regsAt [(5, 0xEA)] with i := 0xFFE } 0xF533).map haltView =
    halt .memoryOutOfBounds 0x200 (some 0xF533) (some 0x1000) := by decide

theorem test_store_registers :
    (runWord { regsAt [(0, 1), (1, 2), (2, 3), (3, 9)] with i := 0x300 } 0xF255).map
      (fun t => (Memory.readBytes t.mem 0x300 4, t.i)) = some ([1, 2, 3, 0], 0x300) := by decide

theorem test_store_registers_out_of_range : (runWord { State.reset with i := 0xFF1 } 0xFF55).map haltView =
    halt .memoryOutOfBounds 0x200 (some 0xFF55) (some 0x1000) := by decide

theorem test_load_registers :
    (runWord { withBytes (regsAt [(3, 9)]) 0x300 [1, 2, 3, 4] with i := 0x300 } 0xF265).map
      (fun t => (t.reg 0, t.reg 1, t.reg 2, t.reg 3, t.i)) = some (1, 2, 3, 9, 0x300) := by decide

theorem test_load_registers_out_of_range : (runWord { State.reset with i := 0xFFE } 0xF265).map haltView =
    halt .memoryOutOfBounds 0x200 (some 0xF265) (some 0x1000) := by decide

/-! ### Display: 95_test_vectors 2.7 -/

theorem test_cls :
    (runWord { State.reset with display := State.reset.display.set 3 0xFF } 0x00E0).map
      (fun t => (pixelsOn t.display 9 5, t.events)) = some ([], { displayUpdated := true }) := by decide

/-- The glyph of 0, read at FONT_BASE from the reset memory. -/
theorem test_drw_glyph :
    (runWord State.reset 0xD015).map (fun t => (pixelsOn t.display 8 6, t.reg 0xF)) =
      some ([(0, 0), (1, 0), (2, 0), (3, 0), (0, 1), (3, 1), (0, 2), (3, 2), (0, 3), (3, 3),
        (0, 4), (1, 4), (2, 4), (3, 4)], 0) := by decide

/-- A collision at (5, 2), with the coordinates taken mod 64 and mod 32. -/
theorem test_drw_collision :
    (runWord { withBytes (regsAt [(0, 0x45), (1, 0x22)]) 0x300 [0xC0] with
        i := 0x300, display := State.reset.display.set 2 0x20 } 0xD011).map
      (fun t => (Display.pixel t.display 5 2, Display.pixel t.display 6 2, t.reg 0xF)) =
      some (false, true, 1) := by decide

theorem test_drw_wraps :
    (runWord { withBytes (regsAt [(0, 60), (1, 31)]) 0x300 [0xFF, 0x80] with i := 0x300 } 0xD012).map
      (fun t => [(60, 31), (63, 31), (0, 31), (3, 31), (4, 31), (60, 0), (61, 0)].map
        fun p => Display.pixel t.display p.1 p.2) =
      some [true, true, true, true, false, true, false] := by decide

theorem test_drw_out_of_range : (runWord { State.reset with i := 0xFFF } 0xD012).map haltView =
    halt .memoryOutOfBounds 0x200 (some 0xD012) (some 0x1000) := by decide

/-- N = 0 reads no memory, whatever I is. -/
theorem test_drw_zero_rows :
    (runWord { regsAt [(0xF, 1)] with i := 0xFFFF } 0xD010).map
      (fun t => (t.pc, t.reg 0xF, t.events)) = some (0x202, 0, { displayUpdated := true }) := by decide

/-! ### Timers and keys: 95_test_vectors 2.8 -/

theorem test_ld_vx_dt : (runWord { State.reset with dt := 0x3C } 0xF307).map (fun t => t.reg 3) = some 0x3C := by decide

theorem test_ld_dt_vx : (runWord (regsAt [(0, 2)]) 0xF015).map (fun t => (t.dt, t.st)) = some (2, 0) := by decide

theorem test_ld_st_vx :
    (runWord (regsAt [(1, 5)]) 0xF118).map (fun t => (t.st, t.toneActive, t.events)) =
      some (5, true, { toneOn := true }) ∧
    (runWord { State.reset with st := 3 } 0xF118).map (fun t => (t.st, t.toneActive, t.events)) =
      some (0, false, { toneOff := true }) := by decide

/-- The first execution waits although a key is held. -/
theorem test_ld_k_enters_wait :
    (runWord { State.reset with pc := 0x210, key := 0x0080 } 0xF20A).map
      (fun t => (t.runState, t.pc, t.kwSnap, t.events)) =
      some (.waitingForKey, 0x210, 0x0080, { keyWait := true }) := by decide

/-- A machine that waits at an F20A at 0x210. -/
def waiting (key kwSnap : Word) : State :=
  { withBytes State.reset 0x210 [0xF2, 0x0A] with
    pc := 0x210, runState := .waitingForKey, key := key, kwSnap := kwSnap }

/-- A new press ends the wait, the lowest key first; a held key does not. -/
theorem test_ld_k_polls :
    (nextOf (step (waiting 0x8011 0x0001))).map (fun t => (t.reg 2, t.pc, t.runState)) =
      some (0x04, 0x212, .running) ∧
    (nextOf (step (waiting 0x0080 0x0080))).map (fun t => (t.reg 2, t.pc, t.runState, t.kwSnap)) =
      some (0x00, 0x210, .waitingForKey, 0x0080) := by decide

theorem test_tick :
    (nextOf (step { State.reset with dt := 2, st := 1, agenda := [.tick] })).map
      (fun t => (t.dt, t.st, t.events, t.pc)) = some (1, 0, { toneOff := true }, 0x200) ∧
    (nextOf (step { State.reset with agenda := [.tick] })).map (fun t => (t.dt, t.st, t.events)) =
      some (0, 0, {}) := by decide

theorem test_tick_halted :
    (nextOf (step { State.reset with dt := 5, runState := .halted, agenda := [.tick] })).map (fun t => t.dt) =
      some 5 := by decide

/-- A jump to itself at 0x200 after its first cycle, with cycles and ticks in turn and without end. -/
def looping : State :=
  { withBytes State.reset 0x200 [0x12, 0x00] with loadOpen := false, schedule := .cyclic [.core, .tick] }

/-- The same with the tick due. -/
def loopingTick : State := { looping with schedule := .cyclic [.tick, .core] }

/-- The machine comes back to the same state after a cycle and a tick. -/
theorem test_cyclic_schedule :
    nextOf (step looping) = some loopingTick ∧ nextOf (step loopingTick) = some looping := by decide

/-- 46_timers_keys R320: the machine has endless runs with infinitely many ticks. -/
theorem test_fair_run_exists : ∃ r : Nat → State, r 0 = looping ∧ isRun r ∧ fairRun r := by
  refine ⟨fun n => if n % 2 = 0 then looping else loopingTick, rfl, fun n => ?_, fun n => ?_⟩
  · rcases Nat.mod_two_eq_zero_or_one n with h | h
    · have h1 : (n + 1) % 2 = 1 := by omega
      simp only [h, h1, if_true, one_ne_zero, if_false]; rfl
    · have h1 : (n + 1) % 2 = 0 := by omega
      simp only [h, h1, if_true, one_ne_zero, if_false]; rfl
  · refine ⟨2 * n + 1, by omega, ?_⟩
    have h : (2 * n + 1) % 2 = 1 := by omega
    simp only [h, one_ne_zero, if_false]; rfl

/-- Under the free schedule the due move is the free value of its place, and the place moves on. -/
theorem test_free_schedule :
    ({ State.reset with schedule := .free 3 } : State).dueMove = Config.freeMove 3 ∧
    ({ State.reset with schedule := .free 3 } : State).takeMove.schedule = .free 4 := ⟨rfl, rfl⟩

/-! ### The host: 95_test_vectors 2.2, 2.8, 2.9 -/

theorem test_stop_while_waiting :
    (nextOf (step { waiting 0 0 with agenda := [.stop] })).map (fun t => (t.runState, t.err, t.events)) =
      some (.halted, none, { halted := true }) := by decide

theorem test_halted_has_no_core_step : nextOf (step { State.reset with runState := .halted }) = none := by decide

theorem test_set_key :
    (nextOf (step { State.reset with key := 0x0201, agenda := [.setKey 9 false, .tick] })).map
      (fun t => (t.key, t.agenda)) = some (0x0001, [.tick]) := by decide

/-- The source's image, loaded before the first cycle. -/
theorem test_load :
    (nextOf (step { State.reset with agenda := [.load [0x60, 0x0A, 0x61]] })).map
      (fun t => (Memory.readBytes t.mem 0x1FF 5, t.pc, t.runState, t.loadOpen)) =
      some ([0x00, 0x60, 0x0A, 0x61, 0x00], 0x200, .running, false) := by decide

/-- The standard glyph of F at the end of the font (10_state R47), and zeroes after it, at reset. -/
theorem test_reset_font :
    Memory.readBytes State.reset.mem 75 7 = [0xF0, 0x80, 0xF0, 0x80, 0x80, 0x00, 0x00] := by decide

/-- An instruction word whose constructor runs as the first instruction after reset. -/
theorem test_withFetchWord : (runWord State.reset 0x00E0).map (fun t => t.pc) = some 0x202 := by decide

/-- What a write lists: a byte that differs from the reset byte, in address order, and nothing else. -/
theorem test_memory_canonical :
    Memory.write (Memory.write (Memory.write [] 0x300 1) 0x200 2) 0x300 0 = [(0x200, 2)] ∧
    Memory.wf [(0x200, 2), (0x300, 1)] = true ∧ Memory.wf [(0x300, 1), (0x200, 2)] = false ∧
    Memory.wf [(0x200, 0)] = false ∧ Memory.wf [(0x1000, 1)] = false := by decide

/-! ### Witnesses: for each statement with hypotheses, a state and operands that meet them, clause by clause.
A witness whose statement speaks of an outcome names it as the meaning's own answer. -/

theorem witness_DecodeOfEncode :
    (Instr.sys 0xFFF).wellFormed = true ∧ (Instr.cls).wellFormed = true ∧
    (Instr.drwVxVyN 0xF 0xF 0xF).wellFormed = true := by decide

theorem witness_EncodeOfDecode :
    decode 0x00EF = .instr (.sys 0x0EF) ∧ decode 0xFF65 = .instr (.ldVxMem 0xF) := by decide

/-- Each clause of the list at the ends of its range. -/
theorem witness_UnknownWordsExactly :
    decode 0x5FF1 = .unknown 0x5FF1 ∧ decode 0x900F = .unknown 0x900F ∧ decode 0x8008 = .unknown 0x8008 ∧
    decode 0x8FFF = .unknown 0x8FFF ∧ decode 0xE09D = .unknown 0xE09D ∧ decode 0xEFFF = .unknown 0xEFFF ∧
    decode 0xF000 = .unknown 0xF000 ∧ decode 0xFFFF = .unknown 0xFFFF := by decide

/-- The default font, and one at the highest FONT_BASE. -/
theorem witness_InitialisationZeroesState :
    defaultFont.length = 80 ∧ (List.replicate 80 (0xFF : Byte)).length = 80 := by decide

set_option maxRecDepth 20000 in
/-- The bytes around a font at the highest FONT_BASE, and where the default font was. -/
theorem witness_InitialisationZeroesState_bounds :
    [0, 4, 0x1AF, 0x1B0, 0x1FF, 0x200].map (fun a => Memory.read
      (State.initWith { defaultParams with fontBase := 0x1B0 } (List.replicate 80 0xFF)).mem a) =
      [0, 0, 0, 0xFF, 0xFF, 0] := by decide

theorem witness_InitialisationMeetsInvariants : defaultFont.length = 80 := by decide

/-- A state whose memory is listed and whose step stores. -/
def storing : State := { (withBytes (regsAt [(0, 7)]) 0x200 [0xF0, 0x55]) with i := 0xFFF }

theorem witness_StepKeepsMemoryCanonical : storing.memCanonical ∧ ∃ t, step storing = .next t :=
  ⟨by unfold State.memCanonical; decide, _, rfl⟩

/-- The highest pc and a return address at its bound. -/
theorem witness_StepKeepsPcBounded :
    State.pcBounded { State.reset with pc := 0x10FE, sp := 1, stack := State.reset.stack.set 0 0x1000 } ∧
    ∃ t, step { State.reset with pc := 0x10FE, sp := 1, stack := State.reset.stack.set 0 0x1000 } = .next t :=
  ⟨⟨by decide, by decide⟩, _, rfl⟩

/-- A failed load: the load is open, and the record it leaves. -/
theorem witness_StepKeepsErrorRecordPrecise :
    State.errPrecise { State.reset with agenda := [.tick] } ∧
    State.freshWhileOpen { State.reset with agenda := [.tick] } ∧
    ∃ t, step { State.reset with agenda := [.tick] } = .next t := by
  refine ⟨fun _ h => ?_, fun _ => ⟨rfl, rfl, rfl, ?_, rfl, rfl, rfl, ?_⟩, _, rfl⟩
  · cases h
  · decide
  · decide

/-- A halted state with its record, where the load is closed. -/
theorem witness_StepKeepsErrorRecordPrecise_halted :
    State.errPrecise { State.reset.raise .stackUnderflow (some 0x00EE) none with
      loadOpen := false, agenda := [.stop] } ∧
    State.freshWhileOpen { State.reset.raise .stackUnderflow (some 0x00EE) none with
      loadOpen := false, agenda := [.stop] } ∧
    ∃ t, step { State.reset.raise .stackUnderflow (some 0x00EE) none with
      loadOpen := false, agenda := [.stop] } = .next t :=
  ⟨fun _ h => by cases h; exact ⟨rfl, rfl⟩, fun h => (by cases h), _, rfl⟩

theorem witness_StepKeepsWaitAtFx0a :
    (waiting 0 0).waitsAtFx0a ∧ (waiting 0 0).runState = .waitingForKey ∧ ∃ t, step (waiting 0 0) = .next t :=
  ⟨fun _ => ⟨2, rfl⟩, rfl, _, rfl⟩

/-- Two states that differ in a stale entry just above SP, with a RET due. -/
def staleLeft : State := { withBytes State.reset 0x200 [0x00, 0xEE] with sp := 1 }

theorem witness_StaleEntriesUnobservable :
    sameButStale staleLeft { staleLeft with stack := staleLeft.stack.set 1 0x300 } ∧
    staleLeft.stack ≠ staleLeft.stack.set 1 0x300 := by
  refine ⟨⟨rfl, ?_⟩, ?_⟩ <;> decide

/-- The last legal fetch address. -/
def atTop (hi lo : Byte) : State := { withBytes State.reset 0xFFE [hi, lo] with pc := 0xFFE }

theorem witness_StepRunsDecodedInstruction :
    (atTop 0x70 0x01).dueMove = .core ∧ (atTop 0x70 0x01).runState = .running ∧
    (atTop 0x70 0x01).pc.toNat + 2 ≤ 4096 ∧
    decodeBytes [Memory.read (atTop 0x70 0x01).mem (atTop 0x70 0x01).pc.toNat,
      Memory.read (atTop 0x70 0x01).mem ((atTop 0x70 0x01).pc.toNat + 1)] =
      some (.instr (.addVxByte 0 0x01), []) := by decide

theorem witness_UnknownWordHalts :
    (atTop 0xF0 0x00).dueMove = .core ∧ (atTop 0xF0 0x00).runState = .running ∧
    (atTop 0xF0 0x00).pc.toNat + 2 ≤ 4096 ∧
    decodeBytes [Memory.read (atTop 0xF0 0x00).mem (atTop 0xF0 0x00).pc.toNat,
      Memory.read (atTop 0xF0 0x00).mem ((atTop 0xF0 0x00).pc.toNat + 1)] = some (.unknown 0xF000, []) := by decide

/-- The lowest pc whose fetch leaves memory, in Running and in the key wait. -/
theorem witness_FetchOutOfRangeHalts :
    (∃ s : State, s.dueMove = .core ∧ s.runState ≠ .halted ∧ 4096 < s.pc.toNat + 2 ∧ s.runState = .running) ∧
    (∃ s : State, s.dueMove = .core ∧ s.runState ≠ .halted ∧ 4096 < s.pc.toNat + 2 ∧
      s.runState = .waitingForKey) :=
  ⟨⟨{ State.reset with pc := 0xFFF }, by decide⟩,
   ⟨{ State.reset with pc := 0xFFF, runState := .waitingForKey }, by decide⟩⟩

theorem witness_WaitCycleRepresentsFx0a :
    (waiting 1 0).dueMove = .core ∧ (waiting 1 0).runState = .waitingForKey ∧
    (waiting 1 0).fetch = .ok (encode (.ldVxK 2)) := ⟨rfl, rfl, rfl⟩

/-- A halted machine with the core's move due, and with a tick due. -/
theorem witness_HaltedIsFinal :
    (∃ s : State, s.runState = .halted ∧ s.dueMove = .core) ∧
    (∃ s t : State, s.runState = .halted ∧ step s = .next t) :=
  ⟨⟨{ State.reset with runState := .halted }, rfl, rfl⟩,
   ⟨{ State.reset with runState := .halted, agenda := [.tick] }, _, rfl, rfl⟩⟩

theorem witness_ErrorCommitsNothing :
    ∃ t, State.reset.runState = .running ∧ exec .ret State.reset = .next t ∧ t.runState = .halted :=
  ⟨_, rfl, rfl, rfl⟩

theorem witness_OnlyFx33AndFx55WriteMemory :
    ∃ t, exec (.ldVxMem 0xF) State.reset = .next t ∧
      ∀ x, Instr.ldVxMem 0xF ≠ .ldBVx x ∧ Instr.ldVxMem 0xF ≠ .ldMemVx x :=
  ⟨_, rfl, by simp⟩

theorem witness_OnlyCallAndRetTouchStack :
    ∃ t, exec (.jp 0x300) State.reset = .next t ∧ (∀ nnn, Instr.jp 0x300 ≠ .call nnn) ∧ Instr.jp 0x300 ≠ .ret :=
  ⟨_, rfl, by simp, by simp⟩

/-- One instruction meets the premise of every clause. -/
theorem witness_SpecialStateHasItsWriters :
    ∃ t, exec (.ldVxByte 0 1) State.reset = .next t ∧
      (∀ nnn x, Instr.ldVxByte 0 1 ≠ .ldIAddr nnn ∧ Instr.ldVxByte 0 1 ≠ .addIVx x ∧
        Instr.ldVxByte 0 1 ≠ .ldFVx x) ∧
      (∀ x, Instr.ldVxByte 0 1 ≠ .ldDtVx x) ∧ (∀ x, Instr.ldVxByte 0 1 ≠ .ldStVx x) ∧
      Instr.ldVxByte 0 1 ≠ .cls ∧ (∀ x y n, Instr.ldVxByte 0 1 ≠ .drwVxVyN x y n) ∧
      (∀ x, Instr.ldVxByte 0 1 ≠ .ldVxK x) :=
  ⟨_, rfl, by simp, by simp, by simp, by simp, by simp, by simp⟩

/-- VF changed as a flag, and VF changed as a destination. -/
theorem witness_VfHasItsWriters :
    (∃ t, exec (.addVxVy 0 1) (regsAt [(0, 0xFF), (1, 0x01)]) = .next t ∧
      t.reg 0xF ≠ (regsAt [(0, 0xFF), (1, 0x01)]).reg 0xF) ∧
    (∃ t, exec (.ldVxByte 0xF 7) State.reset = .next t ∧ t.reg 0xF ≠ State.reset.reg 0xF) :=
  ⟨⟨_, rfl, by decide⟩, ⟨_, rfl, by decide⟩⟩

theorem witness_PcAdvancesByTwo :
    ∃ t, State.reset.runState = .running ∧ exec .cls State.reset = .next t ∧ t.runState = .running ∧
      (∀ nnn, Instr.cls ≠ .jp nnn ∧ Instr.cls ≠ .call nnn ∧ Instr.cls ≠ .jpV0Addr nnn) ∧ Instr.cls ≠ .ret ∧
      (∀ x y nn, Instr.cls ≠ .seVxByte x nn ∧ Instr.cls ≠ .sneVxByte x nn ∧ Instr.cls ≠ .seVxVy x y ∧
        Instr.cls ≠ .sneVxVy x y ∧ Instr.cls ≠ .skpVx x ∧ Instr.cls ≠ .sknpVx x) :=
  ⟨_, rfl, rfl, rfl, by simp, by simp, by simp⟩

/-- Each SYS_POLICY. -/
theorem witness_SysFollowsPolicy :
    State.reset.params.sysPolicy = .fault ∧
    ({ State.reset with params := { defaultParams with sysPolicy := .nop } } : State).params.sysPolicy = .nop := by
  decide

/-- The deepest stack that takes a push, and the full one. -/
theorem witness_CallPushesReturnAddress :
    ({ State.reset with sp := 15 } : State).sp.val < 16 ∧ ({ State.reset with sp := 16 } : State).sp.val = 16 := by
  decide

/-- The shallowest stack that gives a pop, and the empty one. -/
theorem witness_RetPopsReturnAddress :
    0 < ({ State.reset with sp := 1 } : State).sp.val ∧ State.reset.sp.val = 0 := by decide

/-- A CALL at depth 15, and a state that kept its depth and entry. -/
theorem witness_ReturnGoesAfterItsCall :
    ∃ (s t u : State) (_ : s.sp.val < 16), exec (.call 0x300) s = .next t ∧ u.sp = t.sp ∧
      u.stack[s.sp.val] = t.stack[s.sp.val] :=
  ⟨{ State.reset with sp := 15 }, _, _, by decide, rfl, rfl, rfl⟩

/-- The highest key number, and one above it under low_nibble. -/
theorem witness_KeySkips :
    ((regsAt [(5, 15)]).reg 5).toNat ≤ 15 ∧
    ({ regsAt [(5, 16)] with params := { defaultParams with keyIndexPolicy := .lowNibble } } : State).params.keyIndexPolicy
      = .lowNibble := by decide

theorem witness_KeyIndexAboveFifteenHalts :
    15 < ((regsAt [(5, 16)]).reg 5).toNat ∧ (regsAt [(5, 16)]).params.keyIndexPolicy = .fault := by decide

/-- A result register that is not VF. -/
theorem witness_AddSetsCarry : (0xE : Nibble) ≠ 0xF := by decide

/-- A result register that is not VF, and each SUB_VF_POLARITY. -/
theorem witness_SubtractionsSetBorrow :
    (0xE : Nibble) ≠ 0xF ∧ State.reset.params.subVfPolarity = .borrow ∧
    ({ State.reset with params := { defaultParams with subVfPolarity := .notBorrow } } : State).params.subVfPolarity
      = .notBorrow := by decide

/-- Each SHIFT_SRC with its source byte. -/
theorem witness_ShiftsSetBitShiftedOut :
    (State.reset.params.shiftSrc = .vx ∧ (0 : Byte) = State.reset.reg 0) ∧
    (({ regsAt [(1, 7)] with params := { defaultParams with shiftSrc := .vy } } : State).params.shiftSrc = .vy ∧
      (7 : Byte) = ({ regsAt [(1, 7)] with params := { defaultParams with shiftSrc := .vy } } : State).reg 1) ∧
    (0 : Nibble) ≠ 0xF := by decide

/-- A random source with a byte ready, and with none. -/
theorem witness_RndDrawsOneByte :
    ({ State.reset with randFeed := [0xAB] } : State).randFeed = 0xAB :: [] ∧ State.reset.randFeed = [] := by decide

/-- Each FX29_INDEX. -/
theorem witness_AddIAndLdFWriteI :
    State.reset.params.fx29Index = .full ∧
    ({ State.reset with params := { defaultParams with fx29Index := .lowNibble } } : State).params.fx29Index
      = .lowNibble := by decide

/-- The last I whose digits are in memory, and the first whose digits are not. -/
theorem witness_BcdStoresThreeDigits :
    ({ State.reset with i := 0xFFD } : State).i.toNat + 2 ≤ 0xFFF ∧
    0xFFF < ({ State.reset with i := 0xFFE } : State).i.toNat + 2 := by decide

/-- The last I for X = F. -/
theorem witness_StoreRegistersWritesBytes :
    ({ State.reset with i := 0xFF0 } : State).i.toNat + (0xF : Nibble).toNat ≤ 0xFFF ∧
    (0xF : Nibble).toNat ≤ (0xF : Nibble).toNat := by decide

theorem witness_LoadRegistersReadsBytes :
    ({ State.reset with i := 0xFF0 } : State).i.toNat + (0xF : Nibble).toNat ≤ 0xFFF ∧
    (0xF : Nibble).toNat ≤ (0xF : Nibble).toNat := by decide

/-- The first I for X = F that leaves memory, and the first for X = 0. -/
theorem witness_TransferOutOfRangeHalts :
    0xFFF < ({ State.reset with i := 0xFF1 } : State).i.toNat + (0xF : Nibble).toNat ∧
    0xFFF < ({ State.reset with i := 0x1000 } : State).i.toNat + (0 : Nibble).toNat := by decide

theorem witness_LoadGivesBackStoredRegisters :
    ∃ s t u : State, s.i.toNat + (0xF : Nibble).toNat ≤ 0xFFF ∧ exec (.ldMemVx 0xF) s = .next t ∧
      u.mem = t.mem ∧ u.i = s.i :=
  ⟨{ State.reset with i := 0xFF0 }, _, _, by decide, rfl, rfl, rfl⟩

/-- V0 to V3 stored from the FX55's own address, so that V2 and V3 are the next word. -/
theorem witness_StoreSeenByNextFetch :
    ∃ s t : State, s.i.toNat + (3 : Nibble).toNat ≤ 0xFFF ∧ exec (.ldMemVx 3) s = .next t ∧
      t.pc.toNat = s.i.toNat + (2 : Nibble).toNat ∧ (3 : Nibble).toNat = (2 : Nibble).toNat + 1 ∧
      (3 : Nibble).toNat ≤ (3 : Nibble).toNat :=
  ⟨{ State.reset with i := 0x200 }, _, by decide, rfl, by decide, by decide, by decide⟩

/-- No rows anywhere, one row at the last address, two rows from it; and a covered pixel. -/
theorem witness_DrwXorsSprite :
    ((0 : Nibble) = 0 ∨ ({ State.reset with i := 0xFFFF } : State).i.toNat + (0 : Nibble).toNat - 1 ≤ 0xFFF) ∧
    ((1 : Nibble) = 0 ∨ ({ State.reset with i := 0xFFF } : State).i.toNat + (1 : Nibble).toNat - 1 ≤ 0xFFF) ∧
    ((2 : Nibble) ≠ 0 ∧ 0xFFF < ({ State.reset with i := 0xFFF } : State).i.toNat + (2 : Nibble).toNat - 1) := by
  decide

/-- The top left pixel of the glyph of 0, drawn at the reset state, and the bounds of a pixel. -/
theorem witness_DrwXorsSprite_covered :
    spriteCovers State.reset 0 1 5 0 0 ∧ (63 < 64 ∧ 31 < 32) := by
  refine ⟨⟨0, 0, ?_⟩, ?_⟩ <;> decide

theorem witness_DrawingTwiceRestoresDisplay :
    ∃ t, (0 : Nibble) ≠ 0xF ∧ (1 : Nibble) ≠ 0xF ∧
      ((1 : Nibble) = 0 ∨ ({ State.reset with i := 0xFFF } : State).i.toNat + (1 : Nibble).toNat - 1 ≤ 0xFFF) ∧
      exec (.drwVxVyN 0 1 1) { State.reset with i := 0xFFF } = .next t :=
  ⟨_, by decide, by decide, by decide, rfl⟩

/-- A tick due in Running from the agenda, and in Halted from the schedule. -/
theorem witness_TickCountsDown :
    (({ State.reset with st := 1, agenda := [.tick] } : State).dueMove = .tick ∧
      ({ State.reset with st := 1, agenda := [.tick] } : State).runState ≠ .halted) ∧
    (({ State.reset with runState := .halted, schedule := .cyclic [.tick] } : State).dueMove = .tick ∧
      ({ State.reset with runState := .halted, schedule := .cyclic [.tick] } : State).runState = .halted) := by decide

theorem witness_Fx0aEntersKeyWait : State.reset.runState = .running := by decide

/-- Key F is the lowest new press, with every other key held since the last sample. -/
theorem witness_Fx0aCompletesOnNewPress :
    (waiting 0xFFFF 0x7FFF).runState = .waitingForKey ∧
    (waiting 0xFFFF 0x7FFF).key.getLsbD (0xF : Nibble).toNat = true ∧
    (waiting 0xFFFF 0x7FFF).kwSnap.getLsbD (0xF : Nibble).toNat = false ∧
    (∀ j, j < (0xF : Nibble).toNat → (waiting 0xFFFF 0x7FFF).key.getLsbD j = true →
      (waiting 0xFFFF 0x7FFF).kwSnap.getLsbD j = true) := by decide

/-- A held key is no new press. -/
theorem witness_Fx0aWaitsWithoutNewPress :
    (waiting 0x0080 0x0080).runState = .waitingForKey ∧
    (∀ j, (waiting 0x0080 0x0080).key.getLsbD j = true → (waiting 0x0080 0x0080).kwSnap.getLsbD j = true) :=
  ⟨rfl, fun _ h => h⟩

theorem witness_KeyWriteSetsOneKey :
    ({ State.reset with agenda := [.setKey 0xF true, .core] } : State).dueMove = .setKey 0xF true ∧
    (0 : Nibble) ≠ 0xF := by decide

theorem witness_StopHaltsWithoutError :
    ({ waiting 0 0 with agenda := [.stop] } : State).dueMove = .stop ∧
    ({ waiting 0 0 with agenda := [.stop] } : State).runState ≠ .halted := by decide

/-- Reset with a load due. -/
def loading (bytes : List Byte) : State := { State.reset with agenda := [.load bytes] }

/-- The longest image that fits, and one byte more. -/
theorem witness_LoadWritesImage (bytes : List Byte) :
    (loading bytes).dueMove = .load bytes ∧ (loading bytes).loadOpen = true ∧
    (loading bytes).runState = .running ∧ (List.replicate 3584 (0x12 : Byte)).length ≤ 3584 ∧
    3584 < (List.replicate 3585 (0x12 : Byte)).length := by
  refine ⟨rfl, rfl, rfl, ?_, ?_⟩
  · rw [List.length_replicate]
  · rw [List.length_replicate]; decide

/-- A load after the load is closed, and one after a stop. -/
theorem witness_LoadWritesImage_closed :
    (({ loading [] with loadOpen := false } : State).dueMove = .load [] ∧
      ({ loading [] with loadOpen := false } : State).loadOpen = false) ∧
    (({ loading [] with runState := .halted } : State).dueMove = .load [] ∧
      ({ loading [] with runState := .halted } : State).runState ≠ .running) := by decide

end Sys2Proof.Tests
end

namespace Sys2Proof

/-! Control flow (41_control_flow R182): what JP decodes from, and the frame of a jump. -/

/-- Group 1 of 30_encoding R110, every address field. -/
theorem decode_encode_jp (nnn : Addr12) : decode (encode (.jp nnn)) = .instr (.jp nnn) := by
  rw [encode, decode, opField_encodeAddrForm, nnnField_encodeAddrForm]
  rfl

namespace Machine

/-- The advance and a jump write pc and the result set alone (40_cycle_driver R143). -/
theorem changesOnly_advance_setPc (s : State) (w : Word) :
    changesOnly [.pc, .events] s (s.advance.setPc w) := by
  intro p hp
  cases p
  case pc | events => simp at hp
  all_goals simp [Part.same]

theorem exec_jp (nnn : Addr12) (s : State) :
    exec (.jp nnn) s = .next (s.advance.setPc (addrOperand nnn)) := rfl

/-- Settles O26: the word's fields are JP's, and the state that JP answers is the advance with pc set to NNN. -/
theorem jpSetsPc : Obligations.JpSetsPc := by
  intro s nnn
  refine ⟨decode_encode_jp nnn, s.advance.setPc (addrOperand nnn), exec_jp nnn s, ?_, ?_, ?_⟩
  · rw [State.setPc_pc, addrOperand_toNat]
  · rw [State.setPc_events, State.advance_events]
  · exact changesOnly_advance_setPc s _

end Machine

end Sys2Proof

namespace Sys2Proof

/-! Skips (42_skips R200, R201): what SE Vx, byte decodes from, and a skip as an advance with pc set. -/

/-- Group 3 of 30_encoding R110, every register and byte field. -/
theorem decode_encode_seVxByte (x : Nibble) (nn : Byte) :
    decode (encode (.seVxByte x nn)) = .instr (.seVxByte x nn) := by
  rw [encode, decode, opField_encodeByteForm, xField_encodeByteForm, nnField_encodeByteForm]
  rfl

namespace Machine

/-- A skip is the advance with pc set from the fetch address (42_skips R200). -/
theorem State.skipIf_eq_setPc (s : State) (c : Bool) :
    s.skipIf c = s.advance.setPc (if c then s.pc + 4 else s.pc + 2) := by
  cases c with
  | false => rfl
  | true => exact congrArg s.advance.setPc (BitVec.add_assoc s.pc 2 2)

/-- A skip writes pc and the result set alone, taken or not (42_skips R200). -/
theorem changesOnly_skipIf (s : State) (c : Bool) : changesOnly [.pc, .events] s (s.skipIf c) := by
  rw [State.skipIf_eq_setPc]
  exact changesOnly_advance_setPc s _

theorem exec_seVxByte (x : Nibble) (nn : Byte) (s : State) :
    exec (.seVxByte x nn) s = .next (s.skipIf (s.reg x == nn)) := rfl

/-- Settles O31: the word's fields are SE's, and the state that SE answers is the skip on V[X] = NN. -/
theorem seByteSkips : Obligations.SeByteSkips := by
  intro s x nn
  refine ⟨decode_encode_seVxByte x nn, s.skipIf (s.reg x == nn), exec_seVxByte x nn s, ?_, ?_, ?_⟩
  · simp only [State.skipIf_eq_setPc, State.setPc_pc, beq_iff_eq]
  · exact State.skipIf_events s _
  · exact changesOnly_skipIf s _

end Machine

end Sys2Proof

namespace Sys2Proof

/-! Register loads (43_alu R222): what LD Vx, byte decodes from, and the frame of a register write. -/

/-- Group 6 of 30_encoding R110, every register and byte field. -/
theorem decode_encode_ldVxByte (x : Nibble) (nn : Byte) :
    decode (encode (.ldVxByte x nn)) = .instr (.ldVxByte x nn) := by
  rw [encode, decode, opField_encodeByteForm, xField_encodeByteForm, nnField_encodeByteForm]
  rfl

namespace Machine

/-- The advance and a write of V[X] change V[X], pc and the result set alone, X = F included. -/
theorem changesOnly_advance_setReg (s : State) (x : Nibble) (b : Byte) :
    changesOnly [.reg x, .pc, .events] s (s.advance.setReg x b) := by
  intro p hp
  cases p
  case reg r =>
    have hr : r ≠ x := by simpa using hp
    exact State.reg_setReg_ne s.advance b hr
  case pc | events => simp at hp
  all_goals simp [Part.same]

theorem exec_ldVxByte (x : Nibble) (nn : Byte) (s : State) :
    exec (.ldVxByte x nn) s = .next (s.advance.setReg x nn) := rfl

/-- Settles O35: the word's fields are LD's, and the state that LD answers is the advance with V[X] set to NN. -/
theorem ldByteWritesImmediate : Obligations.LdByteWritesImmediate := by
  intro s x nn
  refine ⟨decode_encode_ldVxByte x nn, s.advance.setReg x nn, exec_ldVxByte x nn s, ?_, ?_, ?_, ?_⟩
  · exact State.reg_setReg_same s.advance x nn
  · exact State.setReg_pc s.advance x nn
  · exact State.setReg_events s.advance x nn
  · exact changesOnly_advance_setReg s x nn

end Machine

end Sys2Proof

namespace Sys2Proof

/-! Index register (44_index_memory R261): what LD I, addr decodes from, and the frame of a write to I. -/

/-- Group A of 30_encoding R110, every address field. -/
theorem decode_encode_ldIAddr (nnn : Addr12) :
    decode (encode (.ldIAddr nnn)) = .instr (.ldIAddr nnn) := by
  rw [encode, decode, opField_encodeAddrForm, nnnField_encodeAddrForm]
  rfl

namespace Machine

/-- The advance and a write of I change I, pc and the result set alone. -/
theorem changesOnly_advance_setI (s : State) (w : Word) :
    changesOnly [.index, .pc, .events] s (s.advance.setI w) := by
  intro p hp
  cases p
  case index | pc | events => simp at hp
  all_goals simp [Part.same]

theorem exec_ldIAddr (nnn : Addr12) (s : State) :
    exec (.ldIAddr nnn) s = .next (s.advance.setI (addrOperand nnn)) := rfl

/-- Settles O41: the word's fields are LD I's, and the state that LD I answers is the advance with I set to NNN. -/
theorem ldIWritesAddress : Obligations.LdIWritesAddress := by
  intro s nnn
  refine ⟨decode_encode_ldIAddr nnn, s.advance.setI (addrOperand nnn), exec_ldIAddr nnn s, ?_, ?_, ?_, ?_⟩
  · rw [State.setI_i, addrOperand_toNat]
  · exact State.setI_pc s.advance (addrOperand nnn)
  · exact State.setI_events s.advance (addrOperand nnn)
  · exact changesOnly_advance_setI s (addrOperand nnn)

end Machine

end Sys2Proof

namespace Sys2Proof

/-! Delay timer (46_timers_keys R310, R311): what the two loads decode from, and the frame of a write to DT. -/

/-- The decoder leaves a word FXNN to the table of group F (30_encoding R110). -/
theorem decode_encodeByteForm_groupF (x : Nibble) (nn : Byte) :
    decode (encodeByteForm 0xF x nn) = decodeGroupF (encodeByteForm 0xF x nn) := by
  rw [decode, opField_encodeByteForm]
  rfl

/-- Group F, low byte 07 of 30_encoding R110, every register field. -/
theorem decode_encode_ldVxDt (x : Nibble) : decode (encode (.ldVxDt x)) = .instr (.ldVxDt x) := by
  rw [encode, decode_encodeByteForm_groupF, decodeGroupF, nnField_encodeByteForm, xField_encodeByteForm]
  rfl

/-- Group F, low byte 15 of 30_encoding R110, every register field. -/
theorem decode_encode_ldDtVx (x : Nibble) : decode (encode (.ldDtVx x)) = .instr (.ldDtVx x) := by
  rw [encode, decode_encodeByteForm_groupF, decodeGroupF, nnField_encodeByteForm, xField_encodeByteForm]
  rfl

namespace Machine

/-- The advance and a write of DT change DT, pc and the result set alone. -/
theorem changesOnly_advance_setDt (s : State) (b : Byte) :
    changesOnly [.delayTimer, .pc, .events] s (s.advance.setDt b) := by
  intro p hp
  cases p
  case delayTimer | pc | events => simp at hp
  all_goals simp [Part.same]

theorem exec_ldVxDt (x : Nibble) (s : State) :
    exec (.ldVxDt x) s = .next (s.advance.setReg x s.dt) := rfl

theorem exec_ldDtVx (x : Nibble) (s : State) :
    exec (.ldDtVx x) s = .next (s.advance.setDt (s.reg x)) := rfl

/-- What FX07 answers in every state (46_timers_keys R310). -/
theorem ldVxDt_reads_dt (x : Nibble) (s : State) :
    ∃ t, exec (.ldVxDt x) s = .next t ∧ t.reg x = s.dt ∧ t.pc = s.pc + 2 ∧ t.events = {} ∧
      changesOnly [.reg x, .pc, .events] s t := by
  refine ⟨s.advance.setReg x s.dt, exec_ldVxDt x s, ?_, ?_, ?_, ?_⟩
  · exact State.reg_setReg_same s.advance x s.dt
  · exact State.setReg_pc s.advance x s.dt
  · exact State.setReg_events s.advance x s.dt
  · exact changesOnly_advance_setReg s x s.dt

/-- What FX15 answers in every state (46_timers_keys R311). -/
theorem ldDtVx_writes_dt (x : Nibble) (s : State) :
    ∃ t, exec (.ldDtVx x) s = .next t ∧ t.dt = s.reg x ∧ t.pc = s.pc + 2 ∧ t.events = {} ∧
      changesOnly [.delayTimer, .pc, .events] s t := by
  refine ⟨s.advance.setDt (s.reg x), exec_ldDtVx x s, ?_, ?_, ?_, ?_⟩
  · exact State.setDt_dt s.advance (s.reg x)
  · exact State.setDt_pc s.advance (s.reg x)
  · exact State.setDt_events s.advance (s.reg x)
  · exact changesOnly_advance_setDt s (s.reg x)

/-- Settles O52: each word is its load's encoding, and each load answers the advance with one write. -/
theorem delayTimerReadAndWrite : Obligations.DelayTimerReadAndWrite := by
  intro s x
  exact ⟨decode_encode_ldVxDt x, decode_encode_ldDtVx x, ldVxDt_reads_dt x s, ldDtVx_writes_dt x s⟩

end Machine

end Sys2Proof

namespace Sys2Proof

/-! The decoder and the encoder are inverse (30_encoding R103 to R113): each group of the table read off a word put
together from its fields, and each word put together again from the fields its group reads. -/

/-! ### Decoding an encoded word, group by group -/

/-- Group 0 of 30_encoding R110: a word 0NNN that is neither 00E0 nor 00EE is SYS. -/
theorem decode_encode_sys {nnn : Addr12} (hcls : nnn ≠ 0x0E0) (hret : nnn ≠ 0x0EE) :
    decode (encode (.sys nnn)) = .instr (.sys nnn) := by
  have hfield := nnnField_encodeAddrForm 0x0 nnn
  have hcls' : encodeAddrForm 0x0 nnn ≠ 0x00E0 := fun e => hcls (hfield.symm.trans (congrArg nnnField e))
  have hret' : encodeAddrForm 0x0 nnn ≠ 0x00EE := fun e => hret (hfield.symm.trans (congrArg nnnField e))
  rw [encode, decode, opField_encodeAddrForm]
  change decodeGroup0 (encodeAddrForm 0x0 nnn) = _
  rw [decodeGroup0, if_neg hcls', if_neg hret', hfield]

/-- The decoder leaves a word 8XYn to the table of group 8 (30_encoding R106). -/
theorem decode_encodePair_group8 (x y n : Nibble) :
    decode (encodePair 0x8 x y n) = decodeGroup8 (encodePair 0x8 x y n) := by
  rw [decode, opField_encodePair]
  rfl

/-- The decoder leaves a word EXNN to the table of group E (30_encoding R108). -/
theorem decode_encodeByteForm_groupE (x : Nibble) (nn : Byte) :
    decode (encodeByteForm 0xE x nn) = decodeGroupE (encodeByteForm 0xE x nn) := by
  rw [decode, opField_encodeByteForm]
  rfl

/-- Settles O1: the decoder reads each group's discriminator and operands off the fields that the encoder put there. -/
theorem decodeOfEncode : Obligations.DecodeOfEncode := by
  intro i hi
  cases i
  case sys nnn =>
    simp only [Instr.wellFormed, Bool.and_eq_true, bne_iff_ne] at hi
    exact decode_encode_sys hi.1 hi.2
  case cls | ret => rfl
  case jp nnn => exact decode_encode_jp nnn
  case ldIAddr nnn => exact decode_encode_ldIAddr nnn
  case call nnn | jpV0Addr nnn =>
    rw [encode, decode, opField_encodeAddrForm, nnnField_encodeAddrForm]; rfl
  case seVxByte x nn => exact decode_encode_seVxByte x nn
  case ldVxByte x nn => exact decode_encode_ldVxByte x nn
  case sneVxByte x nn | addVxByte x nn | rndVxByte x nn =>
    rw [encode, decode, opField_encodeByteForm, xField_encodeByteForm, nnField_encodeByteForm]; rfl
  case seVxVy x y | sneVxVy x y =>
    rw [encode, decode, opField_encodePair, nField_encodePair, xField_encodePair, yField_encodePair]; rfl
  case drwVxVyN x y n =>
    rw [encode, decode, opField_encodePair, nField_encodePair, xField_encodePair, yField_encodePair]; rfl
  case ldVxVy x y | orVxVy x y | andVxVy x y | xorVxVy x y | addVxVy x y | subVxVy x y | shrVxVy x y | subnVxVy x y |
      shlVxVy x y =>
    rw [encode, decode_encodePair_group8, decodeGroup8, nField_encodePair, xField_encodePair, yField_encodePair]; rfl
  case skpVx x | sknpVx x =>
    rw [encode, decode_encodeByteForm_groupE, decodeGroupE, nnField_encodeByteForm, xField_encodeByteForm]; rfl
  case ldVxDt x => exact decode_encode_ldVxDt x
  case ldDtVx x => exact decode_encode_ldDtVx x
  case ldVxK x | ldStVx x | addIVx x | ldFVx x | ldBVx x | ldMemVx x | ldVxMem x =>
    rw [encode, decode_encodeByteForm_groupF, decodeGroupF, nnField_encodeByteForm, xField_encodeByteForm]; rfl

/-! ### Encoding a decoded word, group by group -/

section
variable {w : Word} {i : Instr}

theorem encodeAddrForm_eq {op : Nibble} (hop : (opField w).toNat = op.toNat) :
    encodeAddrForm op (nnnField w) = w := by
  rw [← BitVec.eq_of_toNat_eq hop, encodeAddrForm_fields]

theorem encodeByteForm_eq {op : Nibble} (hop : (opField w).toNat = op.toNat) :
    encodeByteForm op (xField w) (nnField w) = w := by
  rw [← BitVec.eq_of_toNat_eq hop, encodeByteForm_fields]

theorem encodePair_eq {op : Nibble} (hop : (opField w).toNat = op.toNat) :
    encodePair op (xField w) (yField w) (nField w) = w := by
  rw [← BitVec.eq_of_toNat_eq hop, encodePair_fields]

/-- A word whose low byte the table of its group lists is the word of that row. -/
theorem encodeByteForm_row_eq {op : Nibble} {nn : Byte} (hop : (opField w).toNat = op.toNat)
    (hnn : (nnField w).toNat = nn.toNat) : encodeByteForm op (xField w) nn = w := by
  rw [← BitVec.eq_of_toNat_eq hnn, encodeByteForm_eq hop]

/-- A word whose low nibble the table of its group lists is the word of that row. -/
theorem encodePair_row_eq {op n : Nibble} (hop : (opField w).toNat = op.toNat)
    (hn : (nField w).toNat = n.toNat) : encodePair op (xField w) (yField w) n = w := by
  rw [← BitVec.eq_of_toNat_eq hn, encodePair_eq hop]

theorem encode_of_decodeGroup0 (hop : (opField w).toNat = (0x0 : Nibble).toNat) (h : decodeGroup0 w = .instr i) :
    encode i = w ∧ i.wellFormed = true := by
  have hw : encodeAddrForm 0x0 (nnnField w) = w := encodeAddrForm_eq hop
  unfold decodeGroup0 at h
  split at h
  next hcls => cases h; exact ⟨hcls.symm, rfl⟩
  next hcls =>
    split at h
    next hret => cases h; exact ⟨hret.symm, rfl⟩
    next hret =>
      cases h
      refine ⟨hw, ?_⟩
      simp only [Instr.wellFormed, Bool.and_eq_true, bne_iff_ne]
      constructor
      · intro e; exact hcls (by rw [← hw, e]; rfl)
      · intro e; exact hret (by rw [← hw, e]; rfl)

theorem encode_of_decodeGroup8 (hop : (opField w).toNat = (0x8 : Nibble).toNat) (h : decodeGroup8 w = .instr i) :
    encode i = w ∧ i.wellFormed = true := by
  unfold decodeGroup8 at h
  split at h <;> cases h
  all_goals rename_i hn; exact ⟨encodePair_row_eq hop hn, rfl⟩

theorem encode_of_decodeGroupE (hop : (opField w).toNat = (0xE : Nibble).toNat) (h : decodeGroupE w = .instr i) :
    encode i = w ∧ i.wellFormed = true := by
  unfold decodeGroupE at h
  split at h <;> cases h
  all_goals rename_i hnn; exact ⟨encodeByteForm_row_eq hop hnn, rfl⟩

theorem encode_of_decodeGroupF (hop : (opField w).toNat = (0xF : Nibble).toNat) (h : decodeGroupF w = .instr i) :
    encode i = w ∧ i.wellFormed = true := by
  unfold decodeGroupF at h
  split at h <;> cases h
  all_goals rename_i hnn; exact ⟨encodeByteForm_row_eq hop hnn, rfl⟩

end

/-- Settles O2: each group of the decoder gives a row whose word is put together from the fields it read, and only
group 0 has a word to leave out. -/
theorem encodeOfDecode : Obligations.EncodeOfDecode := by
  intro w i h
  unfold decode at h
  split at h
  case h_1 hop => exact encode_of_decodeGroup0 hop h
  case h_9 hop => exact encode_of_decodeGroup8 hop h
  case h_15 hop => exact encode_of_decodeGroupE hop h
  case h_16 =>
    have hlt := (opField w).isLt
    simp only [imp_false] at *
    exact encode_of_decodeGroupF (show (opField w).toNat = 15 by omega) h
  case h_6 hop | h_10 hop =>
    split at h <;> cases h
    rename_i hn
    exact ⟨encodePair_row_eq hop (congrArg BitVec.toNat hn), rfl⟩
  case h_14 hop => cases h; exact ⟨encodePair_eq hop, rfl⟩
  case h_2 hop | h_3 hop | h_11 hop | h_12 hop => cases h; exact ⟨encodeAddrForm_eq hop, rfl⟩
  case h_4 hop | h_5 hop | h_7 hop | h_8 hop | h_13 hop => cases h; exact ⟨encodeByteForm_eq hop, rfl⟩

/-! ### The unknown words -/

section
variable {w w' : Word}

/-- Groups 5 and 9 list the low nibble 0 alone (30_encoding R107, D14). -/
theorem decoded_if_nField_zero_eq_unknown {i : Instr} :
    (if nField w = 0 then Decoded.instr i else .unknown w) = .unknown w' ↔ w' = w ∧ nField w ≠ 0 := by
  split
  next hn => simp [hn]
  next hn => exact ⟨fun h => ⟨(Decoded.unknown.inj h).symm, hn⟩, fun h => by rw [h.1]⟩

theorem decodeGroup8_eq_unknown :
    decodeGroup8 w = .unknown w' ↔ w' = w ∧ nField w ∈ ([0x8, 0x9, 0xA, 0xB, 0xC, 0xD, 0xF] : List Nibble) := by
  have hlt := (nField w).isLt
  unfold decodeGroup8
  split
  case h_10 =>
    simp only [imp_false] at *
    simp only [Decoded.unknown.injEq, List.mem_cons, List.not_mem_nil, or_false, ← BitVec.toNat_inj, BitVec.reduceToNat]
    omega
  all_goals
    rename_i hn
    simp [← BitVec.toNat_inj, hn]

theorem decodeGroupE_eq_unknown :
    decodeGroupE w = .unknown w' ↔ w' = w ∧ nnField w ∉ ([0x9E, 0xA1] : List Byte) := by
  unfold decodeGroupE
  split
  case h_3 =>
    simp only [imp_false] at *
    simp_all [← BitVec.toNat_inj, eq_comm]
  all_goals
    rename_i hnn
    simp [← BitVec.toNat_inj, hnn]

theorem decodeGroupF_eq_unknown :
    decodeGroupF w = .unknown w' ↔
      w' = w ∧ nnField w ∉ ([0x07, 0x0A, 0x15, 0x18, 0x1E, 0x29, 0x33, 0x55, 0x65] : List Byte) := by
  unfold decodeGroupF
  split
  case h_10 =>
    simp only [imp_false] at *
    simp_all [← BitVec.toNat_inj, eq_comm]
  all_goals
    rename_i hnn
    simp [← BitVec.toNat_inj, hnn]

end

/-- Settles O3: groups 5 and 9 leave out a low nibble other than 0, groups 8, E and F what their tables do not list,
and every other group lists all its words. -/
theorem unknownWordsExactly : Obligations.UnknownWordsExactly := by
  intro w w'
  unfold decode
  split
  case h_9 hop =>
    rw [decodeGroup8_eq_unknown, show opField w = 0x8 from BitVec.eq_of_toNat_eq hop]
    simp
  case h_15 hop =>
    rw [decodeGroupE_eq_unknown, show opField w = 0xE from BitVec.eq_of_toNat_eq hop]
    simp
  case h_16 =>
    have hlt := (opField w).isLt
    simp only [imp_false] at *
    have hop : (opField w).toNat = (0xF : Nibble).toNat := show _ = 15 by omega
    rw [decodeGroupF_eq_unknown, show opField w = 0xF from BitVec.eq_of_toNat_eq hop]
    simp
  case h_6 hop =>
    rw [decoded_if_nField_zero_eq_unknown, show opField w = 0x5 from BitVec.eq_of_toNat_eq hop]
    simp
  case h_10 hop =>
    rw [decoded_if_nField_zero_eq_unknown, show opField w = 0x9 from BitVec.eq_of_toNat_eq hop]
    simp
  case h_1 hop =>
    have hgroup0 : decodeGroup0 w ≠ .unknown w' := by unfold decodeGroup0; split <;> [skip; split] <;> simp
    simp [hgroup0, ← BitVec.toNat_inj, hop]
  all_goals
    rename_i hop
    simp [← BitVec.toNat_inj, hop]

/-- Settles O4: each row's word is computed; the bytes stand in memory order (20_memory R73). -/
theorem writtenOutWordsDecode : Obligations.WrittenOutWordsDecode := by
  unfold Obligations.WrittenOutWordsDecode
  decide

end Sys2Proof

namespace Sys2Proof.Machine

/-! Frames: what each operation on the state can change (one lemma an operation), and what each instruction can
change beyond the advance (40_cycle_driver R143, R145). -/

/-! ### Frames put together -/

theorem changesOnly_of_subset {ps qs : List Part} {s t : State} (h : changesOnly ps s t) (hsub : ps ⊆ qs) :
    changesOnly qs s t := fun p hp => h p fun hm => hp (hsub hm)

theorem changesOnly_symm {ps : List Part} {s t : State} (h : changesOnly ps s t) : changesOnly ps t s := by
  intro p hp
  have hsame := h p hp
  cases p <;> simp_all [Part.same]

theorem changesOnly_advance (s : State) : changesOnly [.pc, .events] s s.advance := by
  intro p hp
  cases p
  case pc | events => simp at hp
  all_goals simp [Part.same]

/-- What changes from the advanced state on, and pc and the result set, is what changes in all. -/
theorem changesOnly_of_advance {ps : List Part} {s t : State} (h : changesOnly ps s.advance t) :
    changesOnly (ps ++ [.pc, .events]) s t :=
  changesOnly_of_subset (changesOnly_trans (changesOnly_advance s) h) (by intro p; simp; tauto)

/-! ### Frames of the operations -/

section
variable (s : State)

theorem changesOnly_setReg (x : Nibble) (b : Byte) : changesOnly [.reg x] s (s.setReg x b) := by
  intro p hp
  cases p
  case reg r => exact State.reg_setReg_ne s b (by simpa using hp)
  all_goals simp [Part.same]

theorem changesOnly_setRegFlag (x : Nibble) (b f : Byte) : changesOnly [.reg x, .reg 0xF] s (s.setRegFlag x b f) :=
  changesOnly_trans (changesOnly_setReg s x b) (changesOnly_setReg _ flagReg f)

theorem changesOnly_setPc (w : Word) : changesOnly [.pc] s (s.setPc w) := by
  intro p hp
  cases p
  case pc => simp at hp
  all_goals simp [Part.same]

theorem changesOnly_setI (w : Word) : changesOnly [.index] s (s.setI w) := by
  intro p hp
  cases p
  case index => simp at hp
  all_goals simp [Part.same]

theorem changesOnly_setDt (b : Byte) : changesOnly [.delayTimer] s (s.setDt b) := by
  intro p hp
  cases p
  case delayTimer => simp at hp
  all_goals simp [Part.same]

theorem changesOnly_setSt (b : Byte) : changesOnly [.soundTimer] s (s.setSt b) := by
  intro p hp
  cases p
  case soundTimer => simp at hp
  all_goals simp [Part.same]

theorem changesOnly_setDisplay (d : Display) : changesOnly [.display] s (s.setDisplay d) := by
  intro p hp
  cases p
  case display => simp at hp
  all_goals simp [Part.same]

theorem changesOnly_emit (e : ResultSet) : changesOnly [.events] s (s.emit e) := by
  intro p hp
  cases p
  case events => simp at hp
  all_goals simp [Part.same]

theorem changesOnly_takeDraw : changesOnly [.random] s s.takeDraw := by
  intro p hp
  cases p
  case random => simp at hp
  all_goals simp [Part.same]

theorem changesOnly_storeBytes (a : Nat) (bs : List Byte) :
    changesOnly (bytesFrom a bs.length) s (s.storeBytes a bs) := by
  intro p hp
  cases p
  case byte b =>
    rw [byte_mem_bytesFrom] at hp
    exact Memory.read_writeBytes_outside bs s.mem (by omega)
  all_goals simp [Part.same]

theorem changesOnly_loadRegs (x : Nibble) (a : Nat) : changesOnly (regsThrough x) s (s.loadRegs x a) := by
  intro p hp
  cases p
  case reg r =>
    rw [reg_mem_regsThrough] at hp
    exact (State.reg_loadRegs s x r a).trans (if_neg hp)
  all_goals simp [Part.same]

/-- The state that CALL answers below depth 16 (41_control_flow R183). -/
def State.called (s : State) (nnn : Addr12) (h : s.sp.val < 16) : State :=
  { s with stack := s.stack.set s.sp.val s.nextPc, sp := ⟨s.sp.val + 1, by omega⟩, pc := addrOperand nnn, events := {} }

/-- The state that RET answers above depth 0 (41_control_flow R181). -/
def State.returned (s : State) (h : 0 < s.sp.val) : State :=
  { s with sp := ⟨s.sp.val - 1, by omega⟩, pc := s.stack[s.sp.val - 1], events := {} }

theorem changesOnly_called (nnn : Addr12) (h : s.sp.val < 16) :
    changesOnly [.entry ⟨s.sp.val, h⟩, .sp, .pc] s.advance (s.called nnn h) := by
  intro p hp
  cases p
  case sp | pc => simp at hp
  case entry k =>
    have hk : s.sp.val ≠ k.val := fun e => hp (by simp [e])
    exact Vector.getElem_set_ne h k.isLt hk
  all_goals simp [Part.same, State.called, State.reg]

theorem changesOnly_returned (h : 0 < s.sp.val) : changesOnly [.sp, .pc] s.advance (s.returned h) := by
  intro p hp
  cases p
  case sp | pc => simp at hp
  all_goals simp [Part.same, State.returned, State.reg]

theorem changesOnly_skipIf_advance (c : Bool) : changesOnly [.pc] s.advance (s.skipIf c) := by
  rw [State.skipIf_eq_setPc]
  exact changesOnly_setPc s.advance _

theorem changesOnly_enterKeyWait : changesOnly [.runState, .keySnapshot, .events] s s.enterKeyWait := by
  intro p hp
  cases p
  case runState | keySnapshot | events => simp at hp
  all_goals simp [Part.same]

/-- The two ends of the poll step, by the keys newly pressed (46_timers_keys R315). -/
theorem State.pollStep_pressed (x : Nibble) {k : Nat} (h : lowestKey s.newlyPressed = some k) :
    s.pollStep x = { s.advance.setReg x (BitVec.ofNat 8 k) with runState := .running } := by
  rw [State.pollStep, h]

theorem State.pollStep_unpressed (x : Nibble) (h : lowestKey s.newlyPressed = none) :
    s.pollStep x = { s with kwSnap := s.key, events := { keyWait := true } } := by
  rw [State.pollStep, h]

theorem changesOnly_pollStep_pressed (x : Nibble) {k : Nat} (h : lowestKey s.newlyPressed = some k) :
    changesOnly [.reg x, .runState] s.advance (s.pollStep x) := by
  rw [State.pollStep_pressed s x h]
  refine changesOnly_trans (changesOnly_setReg s.advance x (BitVec.ofNat 8 k)) fun p hp => ?_
  cases p
  case runState => simp at hp
  all_goals simp [Part.same, State.reg]

theorem changesOnly_pollStep_unpressed (x : Nibble) (h : lowestKey s.newlyPressed = none) :
    changesOnly [.keySnapshot, .events] s (s.pollStep x) := by
  rw [State.pollStep_unpressed s x h]
  intro p hp
  cases p
  case keySnapshot | events => simp at hp
  all_goals simp [Part.same, State.reg]

/-- What changes from s on, and pc and the result set, is what changes from the advanced state on. -/
theorem changesOnly_from_advance {ps : List Part} {t : State} (h : changesOnly ps s t) :
    changesOnly ([.pc, .events] ++ ps) s.advance t := changesOnly_trans (changesOnly_symm (changesOnly_advance s)) h

end

/-! ### What an instruction can change -/

/-- What instruction i writes in s where it commits or waits, beyond the advance to the next instruction. -/
def instrWrites (s : State) : Instr → List Part
  | .sys _ => []
  | .cls => [.display, .events]
  | .ret => [.sp, .pc]
  | .call _ => if h : s.sp.val < 16 then [.entry ⟨s.sp.val, h⟩, .sp, .pc] else []
  | .jp _ | .jpV0Addr _ => [.pc]
  | .seVxByte _ _ | .sneVxByte _ _ | .seVxVy _ _ | .sneVxVy _ _ | .skpVx _ | .sknpVx _ => [.pc]
  | .ldVxByte x _ | .addVxByte x _ | .ldVxVy x _ | .orVxVy x _ | .andVxVy x _ | .xorVxVy x _ | .ldVxDt x => [.reg x]
  | .addVxVy x _ | .subVxVy x _ | .shrVxVy x _ | .subnVxVy x _ | .shlVxVy x _ => [.reg x, .reg 0xF]
  | .rndVxByte x _ => [.random, .reg x]
  | .ldIAddr _ | .addIVx _ | .ldFVx _ => [.index]
  | .drwVxVyN _ _ _ => [.display, .reg 0xF, .events]
  | .ldVxK x => [.reg x, .pc, .runState, .keySnapshot, .events]
  | .ldDtVx _ => [.delayTimer]
  | .ldStVx _ => [.soundTimer, .events]
  | .ldBVx _ => bytesFrom s.i.toNat 3
  | .ldMemVx x => bytesFrom s.i.toNat (x.toNat + 1)
  | .ldVxMem x => regsThrough x

/-- Memory as a list after an instruction in s (20_memory R77): as it was, or stored to at I, inside memory. -/
def storesAtI (s t : State) : Prop :=
  t.mem = s.mem ∨ ∃ bs, s.effAddr + bs.length ≤ memSize ∧ t.mem = Memory.writeBytes s.mem s.effAddr bs

/-- Instruction i answers in s: it raises an error, or it writes what it can write on the advanced state. -/
def Answers (i : Instr) (s : State) : Prop :=
  ∃ t, exec i s = .next t ∧
    ((∃ k a, t = s.raiseBy i k a) ∨ changesOnly (instrWrites s i) s.advance t) ∧ storesAtI s t

section
variable {i : Instr} {s t : State}

theorem Answers.commit (h : exec i s = .next t) (hc : changesOnly (instrWrites s i) s.advance t)
    (hm : t.mem = s.mem) : Answers i s := ⟨t, h, .inr hc, .inl hm⟩

theorem Answers.store {bs : List Byte} (h : exec i s = .next (s.advance.storeBytes s.effAddr bs))
    (hw : instrWrites s i = bytesFrom s.effAddr bs.length) (hsize : s.effAddr + bs.length ≤ memSize) : Answers i s :=
  ⟨_, h, .inr (hw ▸ changesOnly_storeBytes s.advance s.effAddr bs), .inr ⟨bs, hsize, rfl⟩⟩

theorem Answers.raise {k : ErrorKind} {a : Option Nat} (h : exec i s = .next (s.raiseBy i k a)) : Answers i s :=
  ⟨_, h, .inl ⟨k, a, rfl⟩, .inl rfl⟩

end

/-! ### The instructions with more than one end -/

section
variable (s : State)

/-- The two ends of SYS, by SYS_POLICY (41_control_flow R180). -/
theorem exec_sys_fault (nnn : Addr12) (h : s.params.sysPolicy = .fault) :
    exec (.sys nnn) s = .next (s.raiseBy (.sys nnn) .unknownOpcode none) := by
  change execSys nnn s = _
  rw [execSys, h]

theorem exec_sys_nop (nnn : Addr12) (h : s.params.sysPolicy = .nop) : exec (.sys nnn) s = .next s.advance := by
  change execSys nnn s = _
  rw [execSys, h]

/-- The two ends of RET, by the depth (41_control_flow R181). -/
theorem exec_ret_underflow (h : s.sp.val = 0) : exec .ret s = .next (s.raiseBy .ret .stackUnderflow none) := by
  change execRet s = _
  rw [execRet, (State.pop_eq_none (s := s.advance)).2 h]

theorem exec_ret_returned (h : 0 < s.sp.val) : exec .ret s = .next (s.returned h) := by
  change execRet s = _
  rw [execRet, (State.pop_eq_some (s := s.advance)).2 ⟨h, rfl, rfl⟩]
  rfl

/-- The two ends of CALL, by the depth (41_control_flow R183). -/
theorem exec_call_overflow (nnn : Addr12) (h : s.sp.val = 16) :
    exec (.call nnn) s = .next (s.raiseBy (.call nnn) .stackOverflow none) := by
  change execCall nnn s = _
  rw [execCall, (State.push_eq_none (s := s.advance)).2 h]

theorem exec_call_called (nnn : Addr12) (h : s.sp.val < 16) : exec (.call nnn) s = .next (s.called nnn h) := by
  change execCall nnn s = _
  rw [execCall, (State.push_eq_some (s := s.advance)).2 ⟨h, rfl⟩]
  rfl

/-- The two ends of FX33, by the range check (44_index_memory R264). -/
theorem exec_ldBVx_oob (x : Nibble) {a : Nat} (h : lowestOob s.effAddr 3 = some a) :
    exec (.ldBVx x) s = .next (s.raiseBy (.ldBVx x) .memoryOutOfBounds (some a)) := by
  change execLdBVx x s = _
  rw [execLdBVx, h]

theorem exec_ldBVx_store (x : Nibble) (h : lowestOob s.effAddr 3 = none) :
    exec (.ldBVx x) s = .next (s.advance.storeBytes s.effAddr (bcdDigits (s.reg x))) := by
  change execLdBVx x s = _
  rw [execLdBVx, h]

/-- The two ends of FX55, by the range check (44_index_memory R265). -/
theorem exec_ldMemVx_oob (x : Nibble) {a : Nat} (h : lowestOob s.effAddr (x.toNat + 1) = some a) :
    exec (.ldMemVx x) s = .next (s.raiseBy (.ldMemVx x) .memoryOutOfBounds (some a)) := by
  change execLdMemVx x s = _
  rw [execLdMemVx, h]

theorem exec_ldMemVx_store (x : Nibble) (h : lowestOob s.effAddr (x.toNat + 1) = none) :
    exec (.ldMemVx x) s = .next (s.advance.storeBytes s.effAddr (s.regsUpTo x)) := by
  change execLdMemVx x s = _
  rw [execLdMemVx, h]

/-- The two ends of FX65, by the range check (44_index_memory R266). -/
theorem exec_ldVxMem_oob (x : Nibble) {a : Nat} (h : lowestOob s.effAddr (x.toNat + 1) = some a) :
    exec (.ldVxMem x) s = .next (s.raiseBy (.ldVxMem x) .memoryOutOfBounds (some a)) := by
  change execLdVxMem x s = _
  rw [execLdVxMem, h]

theorem exec_ldVxMem_load (x : Nibble) (h : lowestOob s.effAddr (x.toNat + 1) = none) :
    exec (.ldVxMem x) s = .next (s.advance.loadRegs x s.effAddr) := by
  change execLdVxMem x s = _
  rw [execLdVxMem, h]

/-- The display and the collision that DRW's blit gives (45_display R292). -/
def State.drawn (s : State) (x y n : Nibble) : Display × Bool := Display.blit s.display false (s.drawPixels x y n)

/-- The two ends of DRW, by the range check (45_display R292, R295). -/
theorem exec_drwVxVyN_oob (x y n : Nibble) {a : Nat} (h : lowestOob s.effAddr n.toNat = some a) :
    exec (.drwVxVyN x y n) s = .next (s.raiseBy (.drwVxVyN x y n) .memoryOutOfBounds (some a)) := by
  change execDrwVxVyN x y n s = _
  rw [execDrwVxVyN, h]

theorem exec_drwVxVyN_draw (x y n : Nibble) (h : lowestOob s.effAddr n.toNat = none) :
    exec (.drwVxVyN x y n) s = .next (((s.advance.setDisplay (s.drawn x y n).1).setReg flagReg
      (flagByte (s.drawn x y n).2)).emit { displayUpdated := true }) := by
  change execDrwVxVyN x y n s = _
  rw [execDrwVxVyN, h]
  rfl

/-- The two ends of a key skip, by the key index (42_skips R205 to R207). -/
theorem State.skipIfKey_of_fault (i : Instr) (x : Nibble) (c : Bool)
    (h : keyIndex s.params.keyIndexPolicy (s.reg x) = none) :
    s.skipIfKey i x c = s.raiseBy i .keyIndexOutOfRange none := by
  rw [State.skipIfKey, h]

theorem State.skipIfKey_of_key (i : Instr) (x : Nibble) (c : Bool) {k : Nibble}
    (h : keyIndex s.params.keyIndexPolicy (s.reg x) = some k) :
    s.skipIfKey i x c = s.skipIf (s.keyPressed k == c) := by
  rw [State.skipIfKey, h]

/-- The two ends of FX0A, by the run state (46_timers_keys R314, R315). -/
theorem exec_ldVxK_poll (x : Nibble) (h : s.runState = .waitingForKey) :
    exec (.ldVxK x) s = .next (s.pollStep x) := by
  change execLdVxK x s = _
  rw [execLdVxK, h]

theorem exec_ldVxK_enter (x : Nibble) (h : s.runState ≠ .waitingForKey) :
    exec (.ldVxK x) s = .next s.enterKeyWait := by
  change execLdVxK x s = _
  unfold execLdVxK
  cases hr : s.runState with
  | waitingForKey => exact absurd hr h
  | running | halted => rfl

end

/-! ### The inversion of exec -/

theorem answers_ret (s : State) : Answers .ret s := by
  rcases Nat.eq_zero_or_pos s.sp.val with h | h
  · exact .raise (exec_ret_underflow s h)
  · exact .commit (exec_ret_returned s h) (changesOnly_returned s h) rfl

theorem answers_call (nnn : Addr12) (s : State) : Answers (.call nnn) s := by
  rcases Nat.lt_or_eq_of_le (Nat.le_of_lt_succ s.sp.isLt) with h | h
  · refine .commit (exec_call_called s nnn h) ?_ rfl
    rw [instrWrites, dif_pos h]
    exact changesOnly_called s nnn h
  · exact .raise (exec_call_overflow s nnn h)

theorem answers_ldBVx (x : Nibble) (s : State) : Answers (.ldBVx x) s := by
  cases h : lowestOob s.effAddr 3 with
  | none => exact .store (exec_ldBVx_store s x h) rfl ((lowestOob_eq_none.1 h).resolve_left (by simp))
  | some a => exact .raise (exec_ldBVx_oob s x h)

theorem answers_ldMemVx (x : Nibble) (s : State) : Answers (.ldMemVx x) s := by
  cases h : lowestOob s.effAddr (x.toNat + 1) with
  | none =>
    have hlen := s.regsUpTo_length x
    refine .store (exec_ldMemVx_store s x h) (by rw [hlen]; rfl) ?_
    rw [hlen]
    exact (lowestOob_eq_none.1 h).resolve_left (by simp)
  | some a => exact .raise (exec_ldMemVx_oob s x h)

theorem answers_ldVxMem (x : Nibble) (s : State) : Answers (.ldVxMem x) s := by
  cases h : lowestOob s.effAddr (x.toNat + 1) with
  | none => exact .commit (exec_ldVxMem_load s x h) (changesOnly_loadRegs s.advance x _) rfl
  | some a => exact .raise (exec_ldVxMem_oob s x h)

theorem answers_drwVxVyN (x y n : Nibble) (s : State) : Answers (.drwVxVyN x y n) s := by
  cases h : lowestOob s.effAddr n.toNat with
  | none =>
    refine .commit (exec_drwVxVyN_draw s x y n h) ?_ rfl
    exact changesOnly_trans (changesOnly_trans (changesOnly_setDisplay s.advance _) (changesOnly_setReg _ flagReg _))
      (changesOnly_emit _ _)
  | some a => exact .raise (exec_drwVxVyN_oob s x y n h)

theorem answers_sys (nnn : Addr12) (s : State) : Answers (.sys nnn) s := by
  cases h : s.params.sysPolicy with
  | fault => exact .raise (exec_sys_fault s nnn h)
  | nop => exact .commit (exec_sys_nop s nnn h) (changesOnly_refl _ _) rfl

theorem answers_ldVxK (x : Nibble) (s : State) : Answers (.ldVxK x) s := by
  by_cases hr : s.runState = .waitingForKey
  · refine .commit (exec_ldVxK_poll s x hr) ?_ (s.pollStep_mem x)
    cases h : lowestKey s.newlyPressed with
    | some k => exact changesOnly_of_subset (changesOnly_pollStep_pressed s x h) (by simp [instrWrites])
    | none =>
      exact changesOnly_of_subset (changesOnly_from_advance s (changesOnly_pollStep_unpressed s x h))
        (by simp [instrWrites])
  · exact .commit (exec_ldVxK_enter s x hr)
      (changesOnly_of_subset (changesOnly_from_advance s (changesOnly_enterKeyWait s)) (by simp [instrWrites])) rfl

theorem answers_of_skipIf {i : Instr} {s : State} {c : Bool} (h : exec i s = .next (s.skipIf c))
    (hw : instrWrites s i = [.pc]) : Answers i s :=
  .commit h (hw ▸ changesOnly_skipIf_advance s c) (s.skipIf_mem c)

/-- A key skip is a skip or the key index error (42_skips R205 to R207). -/
theorem answers_of_skipIfKey {i : Instr} {s : State} {x : Nibble} {c : Bool}
    (h : exec i s = .next (s.skipIfKey i x c)) (hw : instrWrites s i = [.pc]) : Answers i s := by
  rcases s.skipIfKey_cases i x c with ⟨-, e⟩ | ⟨k, -, e⟩
  · exact .raise (h.trans (congrArg _ e))
  · exact answers_of_skipIf (h.trans (congrArg _ e)) hw

/-- THE INVERSION OF EXEC: every instruction answers a next state, by an error or by its own writes
(40_cycle_driver R146). -/
theorem answers (i : Instr) (s : State) : Answers i s := by
  cases i
  case sys nnn => exact answers_sys nnn s
  case ret => exact answers_ret s
  case call nnn => exact answers_call nnn s
  case ldBVx x => exact answers_ldBVx x s
  case ldMemVx x => exact answers_ldMemVx x s
  case ldVxMem x => exact answers_ldVxMem x s
  case drwVxVyN x y n => exact answers_drwVxVyN x y n s
  case ldVxK x => exact answers_ldVxK x s
  case skpVx x | sknpVx x => exact answers_of_skipIfKey rfl rfl
  case seVxByte x nn | sneVxByte x nn | seVxVy x y | sneVxVy x y => exact answers_of_skipIf rfl rfl
  case cls => exact .commit rfl (changesOnly_trans (changesOnly_setDisplay s.advance _) (changesOnly_emit _ _)) rfl
  case ldStVx x => exact .commit rfl (changesOnly_trans (changesOnly_setSt s.advance _) (changesOnly_emit _ _)) rfl
  case rndVxByte x nn =>
    exact .commit rfl (changesOnly_trans (changesOnly_takeDraw s.advance) (changesOnly_setReg _ x _)) rfl
  case jp nnn | jpV0Addr nnn => exact .commit rfl (changesOnly_setPc s.advance _) rfl
  case ldVxByte x nn | addVxByte x nn | ldVxDt x => exact .commit rfl (changesOnly_setReg s.advance x _) rfl
  case ldVxVy x y | orVxVy x y | andVxVy x y | xorVxVy x y => exact .commit rfl (changesOnly_setReg s.advance x _) rfl
  case addVxVy x y | subVxVy x y | shrVxVy x y | subnVxVy x y | shlVxVy x y =>
    exact .commit rfl (changesOnly_setRegFlag s.advance x _ _) rfl
  case ldIAddr nnn => exact .commit rfl (changesOnly_setI s.advance _) rfl
  case addIVx x | ldFVx x => exact .commit rfl (changesOnly_setI s.advance _) rfl
  case ldDtVx x => exact .commit rfl (changesOnly_setDt s.advance _) rfl

section
variable {i : Instr} {s t : State}

/-- What an instruction that answers t did. -/
theorem exec_next (h : exec i s = .next t) :
    (∃ k a, t = s.raiseBy i k a) ∨ changesOnly (instrWrites s i) s.advance t := by
  obtain ⟨u, hu, hcases, -⟩ := answers i s
  cases h.symm.trans hu
  exact hcases

/-- What an instruction that answers t did to memory as a list. -/
theorem exec_storesAtI (h : exec i s = .next t) : storesAtI s t := by
  obtain ⟨u, hu, -, hmem⟩ := answers i s
  cases h.symm.trans hu
  exact hmem

end

/-- Settles O18: the inversion of exec gives each instruction its next state. -/
theorem everyInstructionAnswersNext : Obligations.EveryInstructionAnswersNext := by
  intro i s
  obtain ⟨t, h, -⟩ := answers i s
  exact ⟨t, h⟩

end Sys2Proof.Machine

namespace Sys2Proof.Machine

/-! What an instruction leaves unchanged (10_state R33, R37, R52; 20_memory R77; 60_exceptions R340), from the
inversion of exec: a part that is not among an instruction's writes is as before. -/

section
variable {i : Instr} {s t : State} {p : Part}

/-- What the advance, an error and the instruction's own writes all leave alone is as before. -/
theorem exec_same (h : exec i s = .next t) (hp : p ∉ instrWrites s i)
    (hp' : p ∉ [Part.pc, .events, .runState, .err]) : p.same s t := by
  simp only [List.mem_cons, List.not_mem_nil, not_or, or_false] at hp'
  rcases exec_next h with ⟨k, a, rfl⟩ | hc
  · exact (haltedWith_raiseBy s i k a).1 p (by simp [hp'])
  · exact changesOnly_of_advance hc p (by simp [hp, hp'])

/-- The parts that no instruction writes where it raises no error (10_state R45, R49; log 1, 2, 6). -/
def unwrittenParts : List Part := [.err, .keys, .params, .agenda, .loadOpen]

theorem notMem_instrWrites_of_unwritten (hp : p ∈ unwrittenParts) : p ∉ instrWrites s i := by
  simp only [unwrittenParts, List.mem_cons, List.not_mem_nil, or_false] at hp
  rcases hp with rfl | rfl | rfl | rfl | rfl <;>
    cases i <;> simp [instrWrites, not_mem_bytesFrom, regsThrough]

/-- FX0A alone writes the run state where it raises no error (40_cycle_driver R147, R148). -/
theorem runState_mem_instrWrites : Part.runState ∈ instrWrites s i ↔ ∃ x, i = .ldVxK x := by
  cases i <;> simp [instrWrites, not_mem_bytesFrom, regsThrough]

/-- In Running an instruction raises an error, enters the key wait, or runs on (40_cycle_driver R146). -/
theorem exec_running (hr : s.runState = .running) (h : exec i s = .next t) :
    (∃ k a, t = s.raiseBy i k a) ∨ (∃ x, i = .ldVxK x ∧ t = s.enterKeyWait) ∨
    ((∀ x, i ≠ .ldVxK x) ∧ t.runState = .running ∧ changesOnly (instrWrites s i) s.advance t) := by
  by_cases hi : ∃ x, i = .ldVxK x
  · obtain ⟨x, rfl⟩ := hi
    rw [exec_ldVxK_enter s x (by simp [hr])] at h
    cases h
    exact .inr (.inl ⟨x, rfl, rfl⟩)
  · refine (exec_next h).imp_right fun hc => .inr ⟨fun x e => hi ⟨x, e⟩, ?_, hc⟩
    exact (hc .runState fun hm => hi (runState_mem_instrWrites.1 hm)).trans hr

end

/-- Settles O19: an instruction that neither enters the key wait nor runs on has raised its error on s itself. -/
theorem errorCommitsNothing : Obligations.ErrorCommitsNothing := by
  intro i s t hr h ht
  rcases exec_running hr h with ⟨k, a, rfl⟩ | ⟨x, -, rfl⟩ | ⟨-, ht', -⟩
  · exact ⟨k, a, haltedWith_raiseBy s i k a⟩
  · cases ht
  · cases ht'.symm.trans ht

/-- Settles O20: bytes are among the writes of FX33 and FX55 alone. -/
theorem onlyFx33AndFx55WriteMemory : Obligations.OnlyFx33AndFx55WriteMemory := by
  intro i s t h hi a
  have hbyte : Part.byte a ∉ instrWrites s i := by
    cases i
    case ldBVx x => exact absurd rfl (hi x).1
    case ldMemVx x => exact absurd rfl (hi x).2
    all_goals simp [instrWrites, regsThrough]
  exact exec_same h hbyte (by simp)

/-- Settles O21: SP and the entries are among the writes of CALL and RET alone. -/
theorem onlyCallAndRetTouchStack : Obligations.OnlyCallAndRetTouchStack := by
  intro i s t h hcall hret
  have hsp : Part.sp ∉ instrWrites s i := by
    cases i
    case call nnn => exact absurd rfl (hcall nnn)
    case ret => exact absurd rfl hret
    all_goals simp [instrWrites, not_mem_bytesFrom, regsThrough]
  have hentry : ∀ k, Part.entry k ∉ instrWrites s i := by
    intro k
    cases i
    case call nnn => exact absurd rfl (hcall nnn)
    all_goals simp [instrWrites, not_mem_bytesFrom, regsThrough]
  exact ⟨exec_same h hsp (by simp), Vector.ext fun k hk => exec_same (p := .entry ⟨k, hk⟩) h (hentry _) (by simp)⟩

/-- Settles O22: each special part is among its writers' writes alone, and the last five among nobody's. -/
theorem specialStateHasItsWriters : Obligations.SpecialStateHasItsWriters := by
  intro i s t h
  have hkept : ∀ p ∈ [Part.keys, .params, .agenda, .loadOpen], p.same s t := by
    intro p hp
    refine exec_same h (notMem_instrWrites_of_unwritten (List.mem_cons_of_mem _ hp)) ?_
    revert p
    decide
  have hagenda := hkept .agenda (by simp)
  refine ⟨fun hi => exec_same (p := .index) h ?_ (by simp), fun hi => exec_same (p := .delayTimer) h ?_ (by simp),
    fun hi => exec_same (p := .soundTimer) h ?_ (by simp), fun hcls hdrw => exec_same (p := .display) h ?_ (by simp),
    fun hi => exec_same (p := .keySnapshot) h ?_ (by simp), hkept .keys (by simp), hkept .params (by simp),
    hagenda.1, hagenda.2, hkept .loadOpen (by simp)⟩
  -- What is left is that each part stands in no list of writes but those of the excluded constructors.
  all_goals cases i <;> simp_all [instrWrites, not_mem_bytesFrom, regsThrough]

/-- Settles O23: VF is among an instruction's writes as a flag, or as V[X] with X = F. -/
theorem vfHasItsWriters : Obligations.VfHasItsWriters := by
  intro i s t h hne
  have hmem : Part.reg 0xF ∈ instrWrites s i := by
    by_contra hm
    exact hne (exec_same h hm (by simp))
  cases i
  case addVxVy x y | subVxVy x y | subnVxVy x y | shrVxVy x y | shlVxVy x y => exact .inl ⟨x, y, 0, by simp⟩
  case drwVxVyN x y n => exact .inl ⟨x, y, n, by simp⟩
  case ldVxMem x =>
    have hx : x = 0xF := BitVec.eq_of_toNat_eq (Nat.le_antisymm (Nat.le_of_lt_succ x.isLt) (reg_mem_regsThrough.1 hmem))
    exact .inr ⟨0, 0, by simp [hx]⟩
  case ldVxByte x nn | addVxByte x nn | rndVxByte x nn =>
    simp only [instrWrites, List.mem_cons, List.not_mem_nil, Part.reg.injEq, reduceCtorEq, or_false, false_or] at hmem
    exact .inr ⟨0, nn, by simp [hmem]⟩
  case ldVxVy x y | orVxVy x y | andVxVy x y | xorVxVy x y =>
    simp only [instrWrites, List.mem_cons, List.not_mem_nil, Part.reg.injEq, or_false] at hmem
    exact .inr ⟨y, 0, by simp [hmem]⟩
  case ldVxDt x | ldVxK x =>
    simp only [instrWrites, List.mem_cons, List.not_mem_nil, Part.reg.injEq, reduceCtorEq, or_false] at hmem
    exact .inr ⟨0, 0, by simp [hmem]⟩
  all_goals simp [instrWrites, not_mem_bytesFrom] at hmem

/-- Settles O24: in Running pc is among the writes of a jump, a call, a return and a skip alone. -/
theorem pcAdvancesByTwo : Obligations.PcAdvancesByTwo := by
  intro i s t hr h ht hjump hret hskip
  rcases exec_running hr h with ⟨k, a, rfl⟩ | ⟨x, -, rfl⟩ | ⟨hwait, -, hc⟩
  · cases ht
  · cases ht
  · refine hc .pc ?_
    cases i
    case ldVxK x => exact absurd rfl (hwait x)
    all_goals simp_all [instrWrites, not_mem_bytesFrom, regsThrough]

end Sys2Proof.Machine

namespace Sys2Proof.Machine

/-! The invariants that every step keeps (10_state R36, R49; 20_memory R75; 40_cycle_driver R148), each from one
inversion of the step down to the instruction. -/

/-! ### The inversion of the step down to the instruction -/

/-- The instruction i that a core cycle with the fetched word w runs: the decoded one, or the FX0A that waits
(40_cycle_driver R145, R148). -/
def State.runsInstr (s : State) (w : Word) (i : Instr) : Prop :=
  s.runState = .running ∧ decode w = .instr i ∨ s.runState = .waitingForKey ∧ i = .ldVxK (xField w)

/-- What a step that answers t did: a core cycle raised an error of its own or ran an instruction, or another agent
moved. -/
theorem step_next {s t : State} (h : step s = .next t) :
    (∃ k o a, t = s.takeMove.beginCycle.raise k o a) ∨
    (∃ w i, s.fetch = .ok w ∧ s.runsInstr w i ∧ exec i s.takeMove.beginCycle = .next t) ∨
    t = s.takeMove.tick ∨ (∃ k p, t = s.takeMove.setKey k p) ∨ t = s.takeMove.stop ∨
    (∃ bs, s.loadOpen = true ∧ s.runState = .running ∧ t = s.takeMove.load bs) := by
  rcases step_cases h with ⟨hr, hc⟩ | ⟨hr, hc⟩ | hother
  · rcases State.runCycle_next hc with ⟨a, rfl⟩ | ⟨w, i, hf, hd, he⟩ | ⟨w, rfl⟩
    · exact .inl ⟨_, _, _, rfl⟩
    · exact .inr (.inl ⟨w, i, hf, .inl ⟨hr, hd⟩, he⟩)
    · exact .inl ⟨_, _, _, rfl⟩
  · rcases State.waitCycle_next hc with ⟨a, rfl⟩ | ⟨w, hf, rfl⟩
    · exact .inl ⟨_, _, _, rfl⟩
    · exact .inr (.inl ⟨w, _, hf, .inr ⟨hr, rfl⟩, exec_ldVxK_poll s.takeMove.beginCycle _ hr⟩)
  · exact .inr (.inr hother)

theorem State.runsInstr.ne_halted {s : State} {w : Word} {i : Instr} (h : s.runsInstr w i) : s.runState ≠ .halted := by
  rcases h with ⟨hr, -⟩ | ⟨hr, -⟩ <;> simp [hr]

/-- A fetch that succeeds lies inside memory (40_cycle_driver R142). -/
theorem State.pc_le_of_fetch {s : State} {w : Word} (h : s.fetch = .ok w) : s.pc.toNat + 2 ≤ memSize := by
  rcases s.fetch_cases with ⟨hle, -⟩ | ⟨-, e⟩
  · exact hle
  · cases h.symm.trans e

/-- A fetch reads pc and memory alone. -/
theorem State.fetch_congr {s t : State} (hpc : t.pc = s.pc) (hmem : t.mem = s.mem) : t.fetch = s.fetch := by
  rw [State.fetch, State.fetch, hpc, hmem]

/-! ### Memory in its canonical form -/

theorem memCanonical_of_storesAtI {s t : State} (hs : s.memCanonical) (h : storesAtI s t) : t.memCanonical := by
  rcases h with e | ⟨bs, hsize, e⟩
  · rw [State.memCanonical, e]; exact hs
  · rw [State.memCanonical, e]; exact Memory.wf_writeBytes bs hsize hs

theorem memCanonical_load {s : State} (hs : s.memCanonical) (bs : List Byte) : (s.load bs).memCanonical := by
  rcases s.load_cases bs with ⟨hlen, e⟩ | ⟨-, e⟩
  · rw [e]; exact Memory.wf_writeBytes bs (Nat.add_le_of_le_sub' (by decide) hlen) hs
  · rw [e]; exact hs

/-- Settles O8: an instruction's store at I and the load both lie inside memory, and nothing else writes it. -/
theorem stepKeepsMemoryCanonical : Obligations.StepKeepsMemoryCanonical := by
  intro s t hs h
  rcases step_next h with ⟨k, o, a, rfl⟩ | ⟨w, i, -, -, he⟩ | rfl | ⟨k, p, rfl⟩ | rfl | ⟨bs, -, -, rfl⟩
  · exact hs
  · exact memCanonical_of_storesAtI (s := s.takeMove.beginCycle) hs (exec_storesAtI he)
  · rw [State.memCanonical, State.tick_mem]; exact hs
  · exact hs
  · rw [State.memCanonical, State.stop_mem]; exact hs
  · exact memCanonical_load (s := s.takeMove) hs bs

/-! ### The bound on pc and on return addresses -/

theorem pcBounded_of_eq {s t : State} (hs : s.pcBounded) (hpc : t.pc = s.pc) (hsp : t.sp = s.sp)
    (hstack : t.stack = s.stack) : t.pcBounded := by
  rw [State.pcBounded, hpc, hsp, hstack]
  exact hs

section
variable {s t : State} (hpc : s.pc.toNat + 2 ≤ memSize)
include hpc

/-- The next address in sequence after a fetch inside memory (10_state R36). -/
theorem State.nextPc_toNat : s.nextPc.toNat = s.pc.toNat + 2 := by
  have hsize : memSize = 4096 := rfl
  rw [State.nextPc, BitVec.toNat_add]
  exact Nat.mod_eq_of_lt (show s.pc.toNat + 2 < 65536 by omega)

theorem State.nextPc_le : s.nextPc.toNat ≤ 0x1000 := (State.nextPc_toNat hpc).trans_le hpc

theorem State.skipIf_pc_le (c : Bool) : (s.skipIf c).pc.toNat ≤ 0x10FE := by
  have hnext := State.nextPc_le hpc
  cases c with
  | false => exact hnext.trans (by decide)
  | true =>
    change (s.nextPc + 2).toNat ≤ _
    rw [BitVec.toNat_add]
    exact (Nat.mod_le _ _).trans (Nat.add_le_add_right hnext 2 |>.trans (by decide))

end

theorem addrOperand_le (nnn : Addr12) : (addrOperand nnn).toNat ≤ 0xFFF := by
  rw [addrOperand_toNat]
  exact Nat.le_of_lt_succ nnn.isLt

/-- JP V0 reaches at most 0xFFF + 0xFF (10_state R36, 41_control_flow R184). -/
theorem jpV0_toNat (nnn : Addr12) (b : Byte) : (addrOperand nnn + b.setWidth 16).toNat = nnn.toNat + b.toNat := by
  have := nnn.isLt
  have := b.isLt
  rw [BitVec.toNat_add, addrOperand_toNat, BitVec.toNat_setWidth]
  omega

theorem exec_ret_pcBounded {s t : State} (hs : s.pcBounded) (h : exec .ret s = .next t) : t.pcBounded := by
  obtain ⟨hpc, hentries⟩ := hs
  rcases Nat.eq_zero_or_pos s.sp.val with hsp | hsp
  · rw [exec_ret_underflow s hsp] at h
    cases h
    exact ⟨hpc, hentries⟩
  · rw [exec_ret_returned s hsp] at h
    cases h
    have hentry := hentries ⟨s.sp.val - 1, by omega⟩ (Nat.sub_one_lt_of_lt hsp)
    exact ⟨hentry.trans (by decide), fun k hk => hentries k (Nat.lt_of_lt_of_le hk (Nat.sub_le _ _))⟩

theorem exec_call_pcBounded {s t : State} {nnn : Addr12} (hs : s.pcBounded) (hfetch : s.pc.toNat + 2 ≤ memSize)
    (h : exec (.call nnn) s = .next t) : t.pcBounded := by
  rcases Nat.lt_or_eq_of_le (Nat.le_of_lt_succ s.sp.isLt) with hsp | hsp
  · rw [exec_call_called s nnn hsp] at h
    cases h
    refine ⟨(addrOperand_le nnn).trans (by decide), fun k hk => ?_⟩
    change (s.stack.set s.sp.val s.nextPc)[k.val].toNat ≤ 0x1000
    rw [Vector.getElem_set]
    split
    · exact State.nextPc_le hfetch
    · next hne => exact hs.2 k (Nat.lt_of_le_of_ne (Nat.le_of_lt_succ hk) (Ne.symm hne))
  · rw [exec_call_overflow s nnn hsp] at h
    cases h
    exact hs

/-- Where pc is after an instruction other than CALL and RET (10_state R36). -/
theorem exec_pc_le {i : Instr} {s t : State} (hs : s.pcBounded) (hpc : s.pc.toNat + 2 ≤ memSize)
    (hcall : ∀ nnn, i ≠ .call nnn) (hret : i ≠ .ret) (h : exec i s = .next t) : t.pc.toNat ≤ 0x10FE := by
  rcases exec_next h with ⟨k, a, rfl⟩ | hc
  · exact hs.1
  by_cases hm : Part.pc ∈ instrWrites s i
  · cases i
    case call nnn => exact absurd rfl (hcall nnn)
    case ret => exact absurd rfl hret
    case jp nnn => cases h; exact (addrOperand_le nnn).trans (by decide)
    case jpV0Addr nnn =>
      cases h
      have := nnn.isLt
      have := (s.reg 0).isLt
      change (addrOperand nnn + (s.reg 0).setWidth 16).toNat ≤ _
      rw [jpV0_toNat]
      omega
    case seVxByte x nn | sneVxByte x nn | seVxVy x y | sneVxVy x y => cases h; exact State.skipIf_pc_le hpc _
    case skpVx x | sknpVx x =>
      cases h
      rcases s.skipIfKey_cases _ x _ with ⟨-, e⟩ | ⟨k, -, e⟩
      · rw [e]; exact hs.1
      · rw [e]; exact State.skipIf_pc_le hpc _
    case ldVxK x =>
      by_cases hr : s.runState = .waitingForKey
      · rw [exec_ldVxK_poll s x hr] at h
        cases h
        rcases s.pollStep_cases x with ⟨k, -, e⟩ | ⟨-, e⟩
        · rw [e]; exact (State.nextPc_le hpc).trans (by decide)
        · rw [e]; exact hs.1
      · rw [exec_ldVxK_enter s x hr] at h
        cases h
        exact hs.1
    all_goals simp [instrWrites, not_mem_bytesFrom, regsThrough] at hm
  · have hnext : t.pc = s.nextPc := hc .pc hm
    rw [hnext]
    exact (State.nextPc_le hpc).trans (by decide)

theorem exec_pcBounded {i : Instr} {s t : State} (hs : s.pcBounded) (hpc : s.pc.toNat + 2 ≤ memSize)
    (h : exec i s = .next t) : t.pcBounded := by
  by_cases hcall : ∃ nnn, i = .call nnn
  · obtain ⟨nnn, rfl⟩ := hcall
    exact exec_call_pcBounded hs hpc h
  by_cases hret : i = .ret
  · subst hret
    exact exec_ret_pcBounded hs h
  have hcall : ∀ nnn, i ≠ .call nnn := fun nnn e => hcall ⟨nnn, e⟩
  obtain ⟨hsp, hstack⟩ := onlyCallAndRetTouchStack i s t h hcall hret
  refine ⟨exec_pc_le hs hpc hcall hret h, ?_⟩
  rw [hsp, hstack]
  exact hs.2

/-- Settles O9: the instruction was fetched inside memory, so the advance, a skip, a jump and a return stay below
the bound; no other move writes pc or the stack. -/
theorem stepKeepsPcBounded : Obligations.StepKeepsPcBounded := by
  intro s t hs h
  rcases step_next h with ⟨k, o, a, rfl⟩ | ⟨w, i, hf, -, he⟩ | rfl | ⟨k, p, rfl⟩ | rfl | ⟨bs, -, -, rfl⟩
  · exact hs
  · exact exec_pcBounded (s := s.takeMove.beginCycle) hs (State.pc_le_of_fetch hf) he
  · exact pcBounded_of_eq (s := s.takeMove) hs (State.tick_pc _) (State.tick_sp _) (State.tick_stack _)
  · exact hs
  · exact pcBounded_of_eq (s := s.takeMove) hs (State.stop_pc _) (State.stop_sp _) (State.stop_stack _)
  · exact pcBounded_of_eq (s := s.takeMove) hs (State.load_pc _ bs) (State.load_sp _ bs) (State.load_stack _ bs)

end Sys2Proof.Machine

namespace Sys2Proof.Machine

/-! ### The error record -/

theorem errPrecise_of_none {s : State} (h : s.err = none) : s.errPrecise := by
  intro e he
  cases h.symm.trans he

theorem errPrecise_of_eq {s t : State} (hs : s.errPrecise) (herr : t.err = s.err) (hr : t.runState = s.runState)
    (hpc : t.pc = s.pc) : t.errPrecise := by
  rw [State.errPrecise, herr, hr, hpc]
  exact hs

/-- A machine that is not halted has no error record (10_state R49). -/
theorem State.errPrecise.err_none {s : State} (hs : s.errPrecise) (hr : s.runState ≠ .halted) : s.err = none :=
  Option.eq_none_iff_forall_ne_some.2 fun e he => hr (hs e he).1

theorem errPrecise_raise (s : State) (k : ErrorKind) (o : Option Word) (a : Option Nat) :
    (s.raise k o a).errPrecise := by
  intro e he
  cases he
  exact ⟨rfl, rfl⟩

theorem exec_errPrecise {i : Instr} {s t : State} (hs : s.errPrecise) (hr : s.runState ≠ .halted)
    (h : exec i s = .next t) : t.errPrecise := by
  rcases exec_next h with ⟨k, a, rfl⟩ | hc
  · exact errPrecise_raise s k _ a
  · have herr : t.err = s.err := hc .err (notMem_instrWrites_of_unwritten (by simp [unwrittenParts]))
    exact errPrecise_of_none (herr.trans (hs.err_none hr))

theorem exec_loadOpen {i : Instr} {s t : State} (h : exec i s = .next t) : t.loadOpen = s.loadOpen :=
  exec_same (p := .loadOpen) h (notMem_instrWrites_of_unwritten (by simp [unwrittenParts])) (by simp)

theorem freshWhileOpen_of_closed {s : State} (h : s.loadOpen = false) : s.freshWhileOpen := by
  intro ho
  cases h.symm.trans ho

section
variable {s : State} (hs : s.errPrecise) (hf : s.freshWhileOpen)

include hs in
theorem stop_errPrecise : s.stop.errPrecise := by
  by_cases hr : s.runState = .halted
  · rw [State.stop_halted hr]; exact hs
  · rw [State.stop_live hr]; exact errPrecise_of_none rfl

include hf in
/-- A tick finds timers at 0 while the load is open (70_reset R374) and leaves them there. -/
theorem tick_freshWhileOpen : s.tick.freshWhileOpen := by
  intro ho
  rw [State.tick_loadOpen] at ho
  obtain ⟨hpc, hsp, hi, hreg, hdt, hst, hdisp, hrun⟩ := hf ho
  have htimers : s.tick.dt = 0 ∧ s.tick.st = 0 := by
    by_cases hr : s.runState = .halted
    · rw [State.tick_halted hr]; exact ⟨hdt, hst⟩
    · rw [State.tick_live hr]; exact ⟨congrArg countDown hdt, congrArg countDown hst⟩
  obtain ⟨hdt', hst'⟩ := htimers
  simp [hpc, hsp, hi, hreg, hdt', hst', hdisp, hrun]

include hf in
theorem stop_freshWhileOpen : s.stop.freshWhileOpen := by
  by_cases hr : s.runState = .halted
  · rw [State.stop_halted hr]; exact hf
  · rw [State.stop_live hr]
    intro ho
    obtain ⟨hpc, hsp, hi, hreg, hdt, hst, hdisp, -⟩ := hf ho
    exact ⟨hpc, hsp, hi, hreg, hdt, hst, hdisp, by simp⟩

include hs hf in
/-- A failed load's record names 0x200, where pc still is while the load is open (70_reset R373). -/
theorem load_errPrecise (bs : List Byte) (ho : s.loadOpen = true) (hr : s.runState = .running) :
    (s.load bs).errPrecise := by
  rcases s.load_cases bs with ⟨-, e⟩ | ⟨-, e⟩
  · rw [e]; exact errPrecise_of_none (hs.err_none (by simp [hr]))
  · rw [e]
    intro r he
    cases he
    exact ⟨rfl, (hf ho).1.symm⟩

theorem load_loadOpen (s : State) (bs : List Byte) : (s.load bs).loadOpen = false := by
  rcases s.load_cases bs with ⟨-, e⟩ | ⟨-, e⟩ <;> rw [e]

end

/-- Settles O10: an error names pc as it is raised; what runs on had no record; and a core cycle or a load closes
the load, while the other agents leave the registers as at reset. -/
theorem stepKeepsErrorRecordPrecise : Obligations.StepKeepsErrorRecordPrecise := by
  intro s t hs hf h
  rcases step_next h with ⟨k, o, a, rfl⟩ | ⟨w, i, -, hrun, he⟩ | rfl | ⟨k, p, rfl⟩ | rfl | ⟨bs, ho, hr, rfl⟩
  · exact ⟨errPrecise_raise _ k o a, freshWhileOpen_of_closed rfl⟩
  · exact ⟨exec_errPrecise (s := s.takeMove.beginCycle) hs hrun.ne_halted he,
      freshWhileOpen_of_closed (exec_loadOpen he)⟩
  · exact ⟨errPrecise_of_eq (s := s.takeMove) hs (State.tick_err _) (State.tick_runState _) (State.tick_pc _),
      tick_freshWhileOpen (s := s.takeMove) hf⟩
  · exact ⟨hs, hf⟩
  · exact ⟨stop_errPrecise (s := s.takeMove) hs, stop_freshWhileOpen (s := s.takeMove) hf⟩
  · exact ⟨load_errPrecise (s := s.takeMove) hs hf bs ho hr, freshWhileOpen_of_closed (load_loadOpen _ bs)⟩

/-! ### The key wait stands at an FX0A -/

theorem waitsAtFx0a_of_ne {s : State} (h : s.runState ≠ .waitingForKey) : s.waitsAtFx0a := fun hr => absurd hr h

theorem waitsAtFx0a_of_eq {s t : State} (hs : s.waitsAtFx0a) (hr : t.runState = s.runState)
    (hf : t.fetch = s.fetch) : t.waitsAtFx0a := by
  rw [State.waitsAtFx0a, hr, hf]
  exact hs

/-- An instruction fetched in Running that waits is an FX0A, and pc stays at its word (40_cycle_driver R147). -/
theorem exec_waitsAtFx0a {i : Instr} {w : Word} {s t : State} (hr : s.runState = .running) (hf : s.fetch = .ok w)
    (hd : decode w = .instr i) (h : exec i s = .next t) : t.waitsAtFx0a := by
  rcases exec_running hr h with ⟨k, a, rfl⟩ | ⟨x, rfl, rfl⟩ | ⟨-, ht, -⟩
  · exact waitsAtFx0a_of_ne (by simp)
  · intro _
    refine ⟨x, ?_⟩
    rw [(encodeOfDecode w _ hd).1, ← hf]
    exact State.fetch_congr rfl rfl
  · exact waitsAtFx0a_of_ne (by simp [ht])

/-- A poll step ends the wait or leaves pc and memory as they are (40_cycle_driver R148). -/
theorem pollStep_waitsAtFx0a {s : State} (hs : s.waitsAtFx0a) (x : Nibble) : (s.pollStep x).waitsAtFx0a := by
  rcases s.pollStep_cases x with ⟨k, -, e⟩ | ⟨-, e⟩
  · rw [e]; exact waitsAtFx0a_of_ne (by simp)
  · rw [e]; exact hs

theorem stop_waitsAtFx0a (s : State) : s.stop.waitsAtFx0a := by
  by_cases hr : s.runState = .halted
  · rw [State.stop_halted hr]; exact waitsAtFx0a_of_ne (by simp [hr])
  · rw [State.stop_live hr]; exact waitsAtFx0a_of_ne (by simp)

theorem load_waitsAtFx0a (s : State) (bs : List Byte) : (s.load bs).waitsAtFx0a := by
  rcases s.load_cases bs with ⟨-, e⟩ | ⟨-, e⟩ <;> rw [e] <;> exact waitsAtFx0a_of_ne (by simp)

/-- Settles O11: only an FX0A enters the wait, at its own word, and only the poll step works on it there. -/
theorem stepKeepsWaitAtFx0a : Obligations.StepKeepsWaitAtFx0a := by
  intro s t hs h
  rcases step_next h with ⟨k, o, a, rfl⟩ | ⟨w, i, hf, hrun, he⟩ | rfl | ⟨k, p, rfl⟩ | rfl | ⟨bs, -, -, rfl⟩
  · exact waitsAtFx0a_of_ne (by simp)
  · rcases hrun with ⟨hr, hd⟩ | ⟨hr, rfl⟩
    · exact exec_waitsAtFx0a (s := s.takeMove.beginCycle) hr hf hd he
    · rw [exec_ldVxK_poll s.takeMove.beginCycle _ hr] at he
      cases he
      exact pollStep_waitsAtFx0a (s := s.takeMove.beginCycle) hs _
  · exact waitsAtFx0a_of_eq (s := s.takeMove) hs (State.tick_runState _)
      (State.fetch_congr (State.tick_pc _) (State.tick_mem _))
  · exact hs
  · exact stop_waitsAtFx0a _
  · exact load_waitsAtFx0a _ bs

end Sys2Proof.Machine

namespace Sys2Proof.Machine

/-! Stale stack entries (10_state R39, D30): every operation but CALL and RET commutes with replacing the stack, and
those two reach only entries below SP. -/

/-- s with other stack entries. -/
def State.withStack (s : State) (σ : Vector Word 16) : State := { s with stack := σ }

theorem sameButStale_iff {s t : State} :
    sameButStale s t ↔ ∃ σ, t = s.withStack σ ∧ ∀ k : Fin 16, k.val < s.sp.val → σ[k.val] = s.stack[k.val] := by
  constructor
  · rintro ⟨e, hbelow⟩
    exact ⟨t.stack, e, hbelow⟩
  · rintro ⟨σ, rfl, hbelow⟩
    exact ⟨rfl, hbelow⟩

/-- An operation that neither reads nor writes the stack. -/
def StackBlind (f : State → State) : Prop :=
  ∀ s, (∀ σ, f (s.withStack σ) = (f s).withStack σ) ∧ (f s).sp = s.sp ∧ (f s).stack = s.stack

theorem StackBlind.sameButStale {f : State → State} (hf : StackBlind f) {s t : State} (h : sameButStale s t) :
    sameButStale (f s) (f t) := by
  obtain ⟨σ, rfl, hbelow⟩ := sameButStale_iff.1 h
  obtain ⟨hcomm, hsp, hstack⟩ := hf s
  refine sameButStale_iff.2 ⟨σ, hcomm σ, ?_⟩
  rw [hsp, hstack]
  exact hbelow

theorem stackBlind_tick : StackBlind State.tick := by
  refine fun s => ⟨fun σ => ?_, State.tick_sp s, State.tick_stack s⟩
  by_cases h : s.runState = .halted
  · rw [State.tick_halted h, State.tick_halted (s := s.withStack σ) h]; rfl
  · rw [State.tick_live h, State.tick_live (s := s.withStack σ) h]; rfl

theorem stackBlind_stop : StackBlind State.stop := by
  refine fun s => ⟨fun σ => ?_, State.stop_sp s, State.stop_stack s⟩
  by_cases h : s.runState = .halted
  · rw [State.stop_halted h, State.stop_halted (s := s.withStack σ) h]; rfl
  · rw [State.stop_live h, State.stop_live (s := s.withStack σ) h]; rfl

theorem stackBlind_load (bs : List Byte) : StackBlind (State.load · bs) := by
  refine fun s => ⟨fun σ => ?_, State.load_sp s bs, State.load_stack s bs⟩
  simp only [State.load]
  split <;> rfl

theorem stackBlind_pollStep (x : Nibble) : StackBlind (State.pollStep · x) := by
  refine fun s => ⟨fun σ => ?_, State.pollStep_sp s x, State.pollStep_stack s x⟩
  change (s.withStack σ).pollStep x = (s.pollStep x).withStack σ
  cases h : lowestKey s.newlyPressed with
  | some k => rw [State.pollStep_pressed s x h, State.pollStep_pressed (s.withStack σ) x h]; rfl
  | none => rw [State.pollStep_unpressed s x h, State.pollStep_unpressed (s.withStack σ) x h]; rfl

theorem stackBlind_skipIf (c : Bool) : StackBlind (State.skipIf · c) :=
  fun s => ⟨fun σ => by cases c <;> rfl, State.skipIf_sp s c, State.skipIf_stack s c⟩

theorem stackBlind_skipIfKey (i : Instr) (x : Nibble) (c : Bool) : StackBlind (State.skipIfKey · i x c) := by
  refine fun s => ⟨fun σ => ?_, State.skipIfKey_sp s i x c, State.skipIfKey_stack s i x c⟩
  change (s.withStack σ).skipIfKey i x c = (s.skipIfKey i x c).withStack σ
  cases h : keyIndex s.params.keyIndexPolicy (s.reg x) with
  | none => rw [State.skipIfKey_of_fault s i x c h, State.skipIfKey_of_fault (s.withStack σ) i x c h]; rfl
  | some k =>
    rw [State.skipIfKey_of_key s i x c h, State.skipIfKey_of_key (s.withStack σ) i x c h]
    exact (stackBlind_skipIf _ s).1 σ

theorem stackBlind_raise (k : ErrorKind) (o : Option Word) (a : Option Nat) : StackBlind (State.raise · k o a) :=
  fun _ => ⟨fun _ => rfl, rfl, rfl⟩

theorem stackBlind_takeMove : StackBlind State.takeMove := fun _ => ⟨fun _ => rfl, rfl, rfl⟩

theorem stackBlind_beginCycle : StackBlind State.beginCycle := fun _ => ⟨fun _ => rfl, rfl, rfl⟩

theorem stackBlind_setKey (k : Nibble) (pressed : Bool) : StackBlind (State.setKey · k pressed) :=
  fun _ => ⟨fun _ => rfl, rfl, rfl⟩

/-- Every instruction but CALL and RET commutes with replacing the stack (10_state R37). -/
theorem exec_withStack {i : Instr} (hcall : ∀ nnn, i ≠ .call nnn) (hret : i ≠ .ret) (s : State) (σ : Vector Word 16) :
    ∃ u, exec i s = .next u ∧ exec i (s.withStack σ) = .next (u.withStack σ) := by
  cases i
  case call nnn => exact absurd rfl (hcall nnn)
  case ret => exact absurd rfl hret
  case sys nnn =>
    cases h : s.params.sysPolicy with
    | fault => exact ⟨_, exec_sys_fault s nnn h, exec_sys_fault (s.withStack σ) nnn h⟩
    | nop => exact ⟨_, exec_sys_nop s nnn h, exec_sys_nop (s.withStack σ) nnn h⟩
  case ldBVx x =>
    cases h : lowestOob s.effAddr 3 with
    | none => exact ⟨_, exec_ldBVx_store s x h, exec_ldBVx_store (s.withStack σ) x h⟩
    | some a => exact ⟨_, exec_ldBVx_oob s x h, exec_ldBVx_oob (s.withStack σ) x h⟩
  case ldMemVx x =>
    cases h : lowestOob s.effAddr (x.toNat + 1) with
    | none => exact ⟨_, exec_ldMemVx_store s x h, exec_ldMemVx_store (s.withStack σ) x h⟩
    | some a => exact ⟨_, exec_ldMemVx_oob s x h, exec_ldMemVx_oob (s.withStack σ) x h⟩
  case ldVxMem x =>
    cases h : lowestOob s.effAddr (x.toNat + 1) with
    | none => exact ⟨_, exec_ldVxMem_load s x h, exec_ldVxMem_load (s.withStack σ) x h⟩
    | some a => exact ⟨_, exec_ldVxMem_oob s x h, exec_ldVxMem_oob (s.withStack σ) x h⟩
  case drwVxVyN x y n =>
    cases h : lowestOob s.effAddr n.toNat with
    | none => exact ⟨_, exec_drwVxVyN_draw s x y n h, exec_drwVxVyN_draw (s.withStack σ) x y n h⟩
    | some a => exact ⟨_, exec_drwVxVyN_oob s x y n h, exec_drwVxVyN_oob (s.withStack σ) x y n h⟩
  case ldVxK x =>
    by_cases h : s.runState = .waitingForKey
    · exact ⟨_, exec_ldVxK_poll s x h,
        (exec_ldVxK_poll (s.withStack σ) x h).trans (congrArg _ ((stackBlind_pollStep x s).1 σ))⟩
    · exact ⟨_, exec_ldVxK_enter s x h, exec_ldVxK_enter (s.withStack σ) x h⟩
  case skpVx x | sknpVx x => exact ⟨_, rfl, congrArg _ ((stackBlind_skipIfKey _ x _ s).1 σ)⟩
  case seVxByte x nn | sneVxByte x nn | seVxVy x y | sneVxVy x y =>
    exact ⟨_, rfl, congrArg _ ((stackBlind_skipIf _ s).1 σ)⟩
  all_goals exact ⟨_, rfl, rfl⟩

theorem exec_call_stale (nnn : Addr12) {s t : State} (h : sameButStale s t) :
    outcomesSameButStale (exec (.call nnn) s) (exec (.call nnn) t) := by
  obtain ⟨σ, rfl, hbelow⟩ := sameButStale_iff.1 h
  rcases Nat.lt_or_eq_of_le (Nat.le_of_lt_succ s.sp.isLt) with hsp | hsp
  · rw [exec_call_called s nnn hsp, exec_call_called (s.withStack σ) nnn hsp]
    refine ⟨rfl, fun k hk => ?_⟩
    change (σ.set s.sp.val s.nextPc)[k.val] = (s.stack.set s.sp.val s.nextPc)[k.val]
    rw [Vector.getElem_set, Vector.getElem_set]
    split
    · rfl
    · next hne => exact hbelow k (Nat.lt_of_le_of_ne (Nat.le_of_lt_succ hk) (Ne.symm hne))
  · rw [exec_call_overflow s nnn hsp, exec_call_overflow (s.withStack σ) nnn hsp]
    exact (stackBlind_raise _ _ _).sameButStale h

theorem exec_ret_stale {s t : State} (h : sameButStale s t) : outcomesSameButStale (exec .ret s) (exec .ret t) := by
  obtain ⟨σ, rfl, hbelow⟩ := sameButStale_iff.1 h
  rcases Nat.eq_zero_or_pos s.sp.val with hsp | hsp
  · rw [exec_ret_underflow s hsp, exec_ret_underflow (s.withStack σ) hsp]
    exact (stackBlind_raise _ _ _).sameButStale h
  · rw [exec_ret_returned s hsp, exec_ret_returned (s.withStack σ) hsp]
    have hentry : σ[s.sp.val - 1] = s.stack[s.sp.val - 1] :=
      hbelow ⟨s.sp.val - 1, by omega⟩ (Nat.sub_one_lt_of_lt hsp)
    refine sameButStale_iff.2 ⟨σ, ?_, fun k hk => hbelow k (Nat.lt_of_lt_of_le hk (Nat.sub_le _ _))⟩
    simp [State.returned, State.withStack, hentry]

theorem exec_stale (i : Instr) {s t : State} (h : sameButStale s t) :
    outcomesSameButStale (exec i s) (exec i t) := by
  by_cases hcall : ∃ nnn, i = .call nnn
  · obtain ⟨nnn, rfl⟩ := hcall
    exact exec_call_stale nnn h
  by_cases hret : i = .ret
  · subst hret
    exact exec_ret_stale h
  have hcall : ∀ nnn, i ≠ .call nnn := fun nnn e => hcall ⟨nnn, e⟩
  obtain ⟨σ, rfl, hbelow⟩ := sameButStale_iff.1 h
  obtain ⟨u, hu, hu'⟩ := exec_withStack hcall hret s σ
  obtain ⟨hsp, hstack⟩ := onlyCallAndRetTouchStack i s u hu hcall hret
  rw [hu, hu']
  refine sameButStale_iff.2 ⟨σ, rfl, ?_⟩
  rw [hsp, hstack]
  exact hbelow

theorem runCycle_stale {s t : State} (h : sameButStale s t) : outcomesSameButStale s.runCycle t.runCycle := by
  have hfetch : t.fetch = s.fetch := by rw [h.1]; rfl
  rw [State.runCycle, State.runCycle, hfetch]
  cases s.fetch with
  | error a => exact (stackBlind_raise _ _ _).sameButStale h
  | ok w =>
    dsimp only
    cases decode w with
    | instr i => exact exec_stale i h
    | unknown w' => exact (stackBlind_raise _ _ _).sameButStale h

theorem waitCycle_stale {s t : State} (h : sameButStale s t) : outcomesSameButStale s.waitCycle t.waitCycle := by
  have hfetch : t.fetch = s.fetch := by rw [h.1]; rfl
  rw [State.waitCycle, State.waitCycle, hfetch]
  cases s.fetch with
  | error a => exact (stackBlind_raise _ _ _).sameButStale h
  | ok w => exact (stackBlind_pollStep _).sameButStale h

theorem coreStep_stale {s t : State} (h : sameButStale s t) : outcomesSameButStale s.coreStep t.coreStep := by
  have hrun : t.runState = s.runState := by rw [h.1]
  have hbegin : sameButStale s.beginCycle t.beginCycle := stackBlind_beginCycle.sameButStale h
  cases hr : s.runState with
  | halted => rw [State.coreStep_halted hr, State.coreStep_halted (hrun.trans hr)]; rfl
  | running =>
    rw [State.coreStep_running hr, State.coreStep_running (hrun.trans hr)]
    exact runCycle_stale hbegin
  | waitingForKey =>
    rw [State.coreStep_waiting hr, State.coreStep_waiting (hrun.trans hr)]
    exact waitCycle_stale hbegin

theorem loadMove_stale {s t : State} (h : sameButStale s t) (bs : List Byte) :
    outcomesSameButStale (s.loadMove bs) (t.loadMove bs) := by
  have hmay : t.mayLoad = s.mayLoad := by rw [h.1]; rfl
  rw [State.loadMove, State.loadMove, hmay]
  split
  · exact (stackBlind_load bs).sameButStale h
  · rfl

/-- Settles O12: the due move and everything a move reads are the same in both states, and what it answers differs
at most in the stack entries that stay at or above SP. -/
theorem staleEntriesUnobservable : Obligations.StaleEntriesUnobservable := by
  intro s t h
  have hdue : t.dueMove = s.dueMove := by rw [h.1]; rfl
  have htake : sameButStale s.takeMove t.takeMove := stackBlind_takeMove.sameButStale h
  rw [step_eq, step_eq, hdue]
  cases s.dueMove with
  | core => exact coreStep_stale htake
  | tick => exact stackBlind_tick.sameButStale htake
  | setKey k p => exact (stackBlind_setKey k p).sameButStale htake
  | stop => exact stackBlind_stop.sameButStale htake
  | load bs => exact loadMove_stale htake bs

end Sys2Proof.Machine

namespace Sys2Proof.Machine

/-! The step of each agent, from the state before it: the core's cycle (40_cycle_driver R141 to R149), the tick
(46_timers_keys R318), and the host's moves (60_exceptions R355 to R357; 70_reset R372). -/

/-! ### The core's cycle -/

/-- The two bytes that a fetch inside memory reads, decoded as the statements write it (20_memory R73). -/
theorem decodeBytes_pair {hi lo : Byte} {d : Decoded} (h : decodeBytes [hi, lo] = some (d, [])) :
    decode (wordOfBytes hi lo) = d := by
  simpa [decodeBytes] using h

theorem State.fetch_of_le {s : State} (h : s.pc.toNat + 2 ≤ memSize) :
    s.fetch = .ok (wordOfBytes (Memory.read s.mem s.pc.toNat) (Memory.read s.mem (s.pc.toNat + 1))) := by
  rcases s.fetch_cases with ⟨-, e⟩ | ⟨hgt, -⟩
  · exact e
  · omega

theorem State.fetch_of_gt {s : State} (h : memSize < s.pc.toNat + 2) :
    s.fetch = .error (max s.pc.toNat memSize) := by
  rcases s.fetch_cases with ⟨hle, -⟩ | ⟨-, e⟩
  · omega
  · exact e

/-- Settles O13: the fetch gives the two bytes' word, and the cycle runs what it decodes to. -/
theorem stepRunsDecodedInstruction : Obligations.StepRunsDecodedInstruction := by
  intro s i hd hr hpc hbytes
  have hfetch : s.takeMove.beginCycle.fetch = _ := State.fetch_of_le (s := s) hpc
  rw [step_running hd hr, State.runCycle, hfetch]
  simp only [decodeBytes_pair hbytes]

/-- Settles O14: the cycle of an unknown word is the error UnknownOpcode. -/
theorem unknownWordHalts : Obligations.UnknownWordHalts := by
  intro s w hd hr hpc hbytes
  have hfetch : s.takeMove.beginCycle.fetch = _ := State.fetch_of_le (s := s) hpc
  refine ⟨s.takeMove.beginCycle.execUnknown w, ?_, haltedWith_raise _ _ _ _⟩
  rw [step_running hd hr, State.runCycle, hfetch]
  simp only [decodeBytes_pair hbytes]

/-- Settles O15: both live run states fetch first, and the failed fetch is the error. -/
theorem fetchOutOfRangeHalts : Obligations.FetchOutOfRangeHalts := by
  intro s hd hr hpc
  have hfetch : s.takeMove.beginCycle.fetch = .error (max s.pc.toNat memSize) := State.fetch_of_gt (s := s) hpc
  refine ⟨s.takeMove.beginCycle.fetchError (max s.pc.toNat memSize), ?_, haltedWith_raise _ _ _ _⟩
  cases hrun : s.runState with
  | halted => exact absurd hrun hr
  | running => rw [step_running hd hrun, State.runCycle, hfetch]
  | waitingForKey => rw [step_waiting hd hrun, State.waitCycle, hfetch]

/-- Settles O16: the waiting cycle polls with the X field of the word, which is FX0A's operand. -/
theorem waitCycleRepresentsFx0a : Obligations.WaitCycleRepresentsFx0a := by
  intro s x hd hr hf
  have hfetch : s.takeMove.beginCycle.fetch = .ok (encode (.ldVxK x)) := hf
  rw [step_waiting hd hr, State.waitCycle, hfetch, exec_ldVxK_poll s.takeMove.beginCycle x hr]
  simp only [encode, xField_encodeByteForm]

/-! ### Frames of the other agents' moves -/

theorem changesOnly_takeMove (s : State) : changesOnly [.agenda] s s.takeMove := by
  intro p hp
  cases p
  case agenda => simp at hp
  all_goals simp [Part.same]

/-- What a move changes from the state without it on, and the moves to come, is what its step changes. -/
theorem changesOnly_of_takeMove {ps : List Part} {s t : State} (h : changesOnly ps s.takeMove t) :
    changesOnly (ps ++ [.agenda]) s t :=
  changesOnly_of_subset (changesOnly_trans (changesOnly_takeMove s) h) (by intro p; simp; tauto)

section
variable (s : State)

theorem changesOnly_tick : changesOnly [.delayTimer, .soundTimer, .events] s s.tick := by
  intro p hp
  cases p
  case delayTimer | soundTimer | events => simp at hp
  all_goals simp [Part.same]

theorem changesOnly_setKey (k : Nibble) (pressed : Bool) : changesOnly [.keys, .events] s (s.setKey k pressed) := by
  intro p hp
  cases p
  case keys | events => simp at hp
  all_goals simp [Part.same]

theorem changesOnly_enterHalted (e : Option ErrorRecord) :
    changesOnly [.runState, .err, .events] s (s.enterHalted e) := by
  intro p hp
  cases p
  case runState | err | events => simp at hp
  all_goals simp [Part.same]

end

/-- Settles O17: a core move has no step, a tick and a stop empty the result set, a key write writes its key, and a
load is refused. -/
theorem haltedIsFinal : Obligations.HaltedIsFinal := by
  intro s hr
  have hemit : changesOnly [.events, .agenda] s (s.takeMove.emit {}) := changesOnly_of_takeMove (changesOnly_emit _ _)
  have hwiden : [Part.events, .agenda] ⊆ [.keys, .events, .agenda] := List.subset_cons_self _ _
  refine ⟨fun hd => step_halted hd hr, fun t h => ?_⟩
  rcases step_cases h with ⟨hrun, -⟩ | ⟨hwait, -⟩ | rfl | ⟨k, p, rfl⟩ | rfl | ⟨bs, -, hrun, -⟩
  · cases hr.symm.trans hrun
  · cases hr.symm.trans hwait
  · rw [State.tick_halted (s := s.takeMove) hr]; exact changesOnly_of_subset hemit hwiden
  · exact changesOnly_of_takeMove (changesOnly_setKey _ k p)
  · rw [State.stop_halted (s := s.takeMove) hr]; exact changesOnly_of_subset hemit hwiden
  · cases hr.symm.trans hrun

/-- Settles O54: outside Halted each timer counts down by one, never below 0; in Halted the result set is emptied. -/
theorem tickCountsDown : Obligations.TickCountsDown := by
  intro s hd
  refine ⟨s.takeMove.tick, by rw [step_eq, hd]; rfl, by simp, by simp, fun hr => ?_, fun hr => ?_⟩
  · have hframe := changesOnly_of_takeMove (changesOnly_tick s.takeMove)
    rw [State.tick_live (s := s.takeMove) hr] at hframe ⊢
    exact ⟨countDown_toNat s.dt, countDown_toNat s.st, rfl, hframe⟩
  · rw [State.tick_halted (s := s.takeMove) hr]
    exact ⟨rfl, changesOnly_of_takeMove (changesOnly_emit _ _)⟩

/-- The key state after a key write (60_exceptions R357). -/
theorem keyPressed_setKey (s : State) (k j : Nibble) (pressed : Bool) :
    (s.setKey k pressed).keyPressed j = if j = k then pressed else s.keyPressed j := by
  have hj : j.toNat < 16 := j.isLt
  unfold State.keyPressed State.setKey
  by_cases h : j = k
  · subst h
    cases pressed <;> simp [hj]
  · have hne : j.toNat ≠ k.toNat := fun e => h (BitVec.eq_of_toNat_eq e)
    cases pressed <;> simp [h, hj, hne]

/-- Settles O58: a key write sets its key's bit, in every run state. -/
theorem keyWriteSetsOneKey : Obligations.KeyWriteSetsOneKey := by
  intro s k pressed hd
  refine ⟨s.takeMove.setKey k pressed, by rw [step_eq, hd]; rfl, ?_, fun j hj => ?_, rfl, rfl, rfl,
    changesOnly_of_takeMove (changesOnly_setKey _ k pressed)⟩
  · rw [keyPressed_setKey, if_pos rfl]
  · rw [keyPressed_setKey, if_neg hj]; rfl

/-- Settles O59: outside Halted a stop is the entry into Halted with no record. -/
theorem stopHaltsWithoutError : Obligations.StopHaltsWithoutError := by
  intro s hd hr
  refine ⟨s.takeMove.enterHalted none, ?_, rfl, rfl, rfl, rfl, rfl,
    changesOnly_of_takeMove (changesOnly_enterHalted _ none)⟩
  rw [step_eq, hd, ← State.stop_live (s := s.takeMove) hr]
  rfl

/-! ### The load -/

section
variable {s : State} {bytes : List Byte}

/-- The two ends of a load, by the image's length (70_reset R372, R373). -/
theorem State.load_of_le (hlen : bytes.length ≤ maxProg) :
    s.load bytes =
      { s with mem := Memory.writeBytes s.mem progBase bytes, runState := .running, loadOpen := false, events := {} } :=
  if_pos hlen

theorem State.load_of_gt (hlen : maxProg < bytes.length) :
    s.load bytes = { s.enterHalted (some programTooLarge) with loadOpen := false } := if_neg (Nat.not_le_of_lt hlen)

theorem changesOnly_load_of_le (hlen : bytes.length ≤ maxProg) (hr : s.runState = .running) :
    changesOnly (bytesFrom 0x200 bytes.length ++ [.loadOpen, .events]) s (s.load bytes) := by
  intro p hp
  rw [State.load_of_le hlen]
  cases p
  case byte a =>
    have ha : Part.byte a ∉ bytesFrom 0x200 bytes.length := fun hm => hp (List.mem_append_left _ hm)
    rw [byte_mem_bytesFrom] at ha
    exact Memory.read_writeBytes_outside bytes s.mem (show a < 0x200 ∨ 0x200 + bytes.length ≤ a by omega)
  case loadOpen | events => simp at hp
  case runState => exact hr.symm
  all_goals simp [Part.same, State.reg]

theorem changesOnly_load_of_gt (hlen : maxProg < bytes.length) :
    changesOnly [.runState, .err, .loadOpen, .events] s (s.load bytes) := by
  intro p hp
  rw [State.load_of_gt hlen]
  cases p
  case runState | err | loadOpen | events => simp at hp
  all_goals simp [Part.same, State.reg]

theorem State.loadMove_open (ho : s.loadOpen = true) (hr : s.runState = .running) :
    s.loadMove bytes = .next (s.load bytes) := by
  rw [State.loadMove, if_pos (by simp [State.mayLoad, ho, hr])]

theorem State.loadMove_closed (h : s.loadOpen = false ∨ s.runState ≠ .running) :
    s.loadMove bytes = .refused .loadClosed := by
  rw [State.loadMove, if_neg]
  rcases h with h | h <;> simp [State.mayLoad, h]

end

/-- Settles O60: an open load in Running writes an image that fits and halts on a longer one; any other load is
refused. -/
theorem loadWritesImage : Obligations.LoadWritesImage := by
  intro s bytes hd
  have hstep : step s = s.takeMove.loadMove bytes := by rw [step_eq, hd]; rfl
  refine ⟨fun ho hr hlen => ?_, fun ho hr hlen => ?_, fun h => hstep.trans (State.loadMove_closed (s := s.takeMove) h)⟩
  · have hlen : bytes.length ≤ maxProg := hlen
    have hframe := changesOnly_of_takeMove (changesOnly_load_of_le (s := s.takeMove) hlen hr)
    rw [List.append_assoc, State.load_of_le hlen] at hframe
    refine ⟨_, hstep.trans (State.loadMove_open (s := s.takeMove) ho hr), ?_⟩
    rw [State.load_of_le hlen]
    refine ⟨fun k hk => ?_, rfl, rfl, rfl, rfl, hframe⟩
    rw [Memory.read_writeBytes, if_pos ⟨Nat.le_add_right _ k, Nat.add_lt_add_left hk _⟩]
    exact congrArg (bytes.getD · 0) (Nat.add_sub_cancel_left 0x200 k)
  · have hlen : maxProg < bytes.length := hlen
    have hframe := changesOnly_of_takeMove (changesOnly_load_of_gt (s := s.takeMove) hlen)
    refine ⟨_, hstep.trans (State.loadMove_open (s := s.takeMove) ho hr), ?_⟩
    rw [State.load_of_gt hlen] at hframe ⊢
    exact ⟨rfl, rfl, rfl, rfl, rfl, rfl, hframe⟩

end Sys2Proof.Machine

namespace Sys2Proof.Machine

/-! Initialisation (10_state R47, R54, R55): the default font's place is zeroed and the given font written. -/

/-- An address that memory does not list reads its byte of the default font, and 0 outside it (10_state R54, R55). -/
theorem unlistedByte_eq (a : Nat) : unlistedByte a = defaultFont.getD a 0 := by
  exact if_pos (Nat.zero_le a)

theorem defaultFont_length : defaultFont.length = 80 := rfl

/-- Memory with the default font's place zeroed reads 0 everywhere. -/
theorem read_zeroed (a : Nat) :
    Memory.read (Memory.writeBytes [] defaultParams.fontBase.val (List.replicate defaultFont.length 0)) a = 0 := by
  have hbase : defaultParams.fontBase.val = 0 := rfl
  rw [Memory.read_writeBytes, hbase, List.length_replicate, defaultFont_length]
  split
  next h => exact List.getD_replicate (h := by omega) ..
  next h =>
    rw [Memory.read_nil, unlistedByte_eq]
    exact List.getD_eq_default _ _ (by rw [defaultFont_length]; omega)

theorem read_initWith (p : Params) (font : List Byte) (a : Nat) :
    Memory.read (State.initWith p font).mem a =
      if p.fontBase.val ≤ a ∧ a < p.fontBase.val + font.length then font.getD (a - p.fontBase.val) 0 else 0 := by
  rw [State.initWith, Memory.read_writeBytes, read_zeroed]

/-- Initialisation sets the parameters and memory, and every other field as at reset. -/
theorem initWith_eq (p : Params) (font : List Byte) :
    State.initWith p font = { State.reset with params := p, mem := (State.initWith p font).mem } := rfl

/-- Settles O5: the font's bytes are written over zeroes, and the other fields are those of reset. -/
theorem initialisationZeroesState : Obligations.InitialisationZeroesState := by
  intro p font hfont
  have hreg : ∀ r : Nibble, (State.initWith p font).reg r = 0 := fun r => Vector.getElem_replicate r.isLt
  have hstack : ∀ k : Fin 16, (State.initWith p font).stack[k.val] = 0 := fun k => Vector.getElem_replicate k.isLt
  refine ⟨fun a => ?_, hreg, rfl, rfl, rfl, rfl, hstack, rfl⟩
  rw [read_initWith, hfont]

/-- Initialisation stores inside memory only: FONT_BASE + 80 is at most 0x200 (00_scope R9). -/
theorem initWith_memCanonical (p : Params) {font : List Byte} (hfont : font.length = 80) :
    (State.initWith p font).memCanonical := by
  have hbase := p.fontBase.isLt
  have hsize : memSize = 4096 := rfl
  refine Memory.wf_writeBytes _ (by omega) (Memory.wf_writeBytes _ ?_ rfl)
  rw [List.length_replicate, defaultFont_length]
  decide

/-- Canonical memory that reads its reset bytes everywhere lists nothing. -/
theorem eq_nil_of_read_unlisted {m : Memory} (hwf : Memory.wf m = true)
    (hread : ∀ a, Memory.read m a = unlistedByte a) :
    m = [] := by
  cases m with
  | nil => rfl
  | cons c rest =>
    obtain ⟨-, -, hv, -⟩ := Memory.wfFrom_cons.1 hwf
    exact absurd ((if_pos rfl).symm.trans (hread c.1)) hv

/-- Settles O6: the default font over its zeroed place reads as unlisted, so nothing is listed; the values are read
off. -/
theorem resetIsDefaultInitialisation : Obligations.ResetIsDefaultInitialisation := by
  have hmem : (State.initWith defaultParams defaultFont).mem = [] := by
    refine eq_nil_of_read_unlisted (initWith_memCanonical defaultParams defaultFont_length) fun a => ?_
    rw [read_initWith, unlistedByte_eq, show defaultParams.fontBase.val = 0 from rfl]
    split
    · rfl
    · exact (List.getD_eq_default _ _ (by omega)).symm
  have hreset : State.reset = State.initWith defaultParams defaultFont := by
    rw [initWith_eq, hmem]
    rfl
  exact ⟨hreset, rfl, rfl, rfl, rfl, rfl, rfl, unlistedByte_eq, Display.pixel_clear, rfl, rfl, rfl, rfl⟩

/-- Settles O7: the registers are those of reset, and no key wait and no error record stands there. -/
theorem initialisationMeetsInvariants : Obligations.InitialisationMeetsInvariants := by
  intro p font hfont
  obtain ⟨-, hreg, hi, hdt, hst, hsp, -, hpc⟩ := initialisationZeroesState p font hfont
  have hrun : (State.initWith p font).runState ≠ .waitingForKey := nofun
  refine ⟨initWith_memCanonical p hfont, ⟨?_, fun k hk => ?_⟩, fun _ => ⟨hpc, hsp, hi, hreg, hdt, hst, rfl, hrun⟩,
    errPrecise_of_none rfl, waitsAtFx0a_of_ne hrun⟩
  · rw [hpc]; decide
  · rw [hsp] at hk; exact absurd hk (Nat.not_lt_zero _)

end Sys2Proof.Machine

namespace Sys2Proof.Machine

/-! What each instruction writes: control flow (41_control_flow) and skips (42_skips). -/

/-! ### Control flow -/

/-- Settles O25: the two policies are the two ends of SYS. -/
theorem sysFollowsPolicy : Obligations.SysFollowsPolicy := by
  intro s nnn
  cases hp : s.params.sysPolicy with
  | fault => exact ⟨_, exec_sys_fault s nnn hp, fun _ => haltedWith_raiseBy s _ _ _, nofun⟩
  | nop => exact ⟨_, exec_sys_nop s nnn hp, nofun, fun _ => ⟨rfl, rfl, changesOnly_advance s⟩⟩

/-- Settles O27: the sum of an address field and a byte stays below 65536. -/
theorem jpV0SetsPcToSum : Obligations.JpV0SetsPcToSum := by
  intro s nnn
  exact ⟨s.advance.setPc (addrOperand nnn + (s.reg 0).setWidth 16), rfl, jpV0_toNat nnn (s.reg 0), rfl,
    changesOnly_advance_setPc s _⟩

/-- Settles O28: the depth decides between the two ends of CALL. -/
theorem callPushesReturnAddress : Obligations.CallPushesReturnAddress := by
  intro s nnn
  refine ⟨fun h => ⟨s.called nnn h, exec_call_called s nnn h, Vector.getElem_set_self h, rfl, addrOperand_toNat nnn,
    rfl, changesOnly_of_subset (changesOnly_of_advance (changesOnly_called s nnn h)) (by simp)⟩, fun h => ?_⟩
  exact ⟨_, exec_call_overflow s nnn h, haltedWith_raiseBy s _ _ _⟩

/-- Settles O29: the depth decides between the two ends of RET. -/
theorem retPopsReturnAddress : Obligations.RetPopsReturnAddress := by
  intro s
  refine ⟨fun h => ⟨s.returned h, exec_ret_returned s h, rfl, rfl, rfl,
    changesOnly_of_subset (changesOnly_of_advance (changesOnly_returned s h)) (by simp)⟩, fun h => ?_⟩
  exact ⟨_, exec_ret_underflow s h, haltedWith_raiseBy s _ _ _⟩

/-- Settles O30: the CALL left its return address at its own depth, one below the depth that the RET finds. -/
theorem returnGoesAfterItsCall : Obligations.ReturnGoesAfterItsCall := by
  intro s t u nnn h hcall hsp hentry
  cases (exec_call_called s nnn h).symm.trans hcall
  have hdepth : u.sp.val = s.sp.val + 1 := congrArg Fin.val hsp
  have hpos : 0 < u.sp.val := by omega
  have hpc : (u.returned hpos).pc = u.stack[s.sp.val] := by simp [State.returned, hdepth]
  refine ⟨u.returned hpos, exec_ret_returned u hpos, ?_, Fin.ext ?_⟩
  · rw [hpc, hentry]
    exact Vector.getElem_set_self h
  · exact Nat.sub_eq_of_eq_add hdepth

/-! ### Skips -/

/-- What a skip answers (42_skips R200). -/
theorem commits_skipIf {i : Instr} {s : State} {c : Bool} (h : exec i s = .next (s.skipIf c)) :
    ∃ t, exec i s = .next t ∧ t.pc = (if c then s.pc + 4 else s.pc + 2) ∧ t.events = {} ∧
      changesOnly [.pc, .events] s t := by
  refine ⟨s.skipIf c, h, ?_, State.skipIf_events s c, changesOnly_skipIf s c⟩
  rw [State.skipIf_eq_setPc, State.setPc_pc]

/-- A skip whose condition is that two bytes are equal, or that they are not. -/
theorem commits_skipIf_eq {i : Instr} {s : State} {a b : Byte} (h : exec i s = .next (s.skipIf (a == b))) :
    ∃ t, exec i s = .next t ∧ t.pc = (if a = b then s.pc + 4 else s.pc + 2) ∧ t.events = {} ∧
      changesOnly [.pc, .events] s t := by
  simpa only [beq_iff_eq] using commits_skipIf h

theorem commits_skipIf_ne {i : Instr} {s : State} {a b : Byte} (h : exec i s = .next (s.skipIf (a != b))) :
    ∃ t, exec i s = .next t ∧ t.pc = (if a = b then s.pc + 2 else s.pc + 4) ∧ t.events = {} ∧
      changesOnly [.pc, .events] s t := by
  simpa only [bne_iff_ne, ne_eq, ite_not] using commits_skipIf h

/-- Settles O32: each of the three is the skip on its condition. -/
theorem registerSkips : Obligations.RegisterSkips := by
  intro s x y nn
  exact ⟨commits_skipIf_ne rfl, commits_skipIf_eq rfl, commits_skipIf_ne rfl⟩

/-- Where V[X] names a key, by its value or by the policy, the key is V[X] mod 16 (42_skips R207). -/
theorem keyIndex_eq_some {p : KeyIndexPolicy} {b : Byte} (h : b.toNat ≤ 15 ∨ p = .lowNibble) :
    keyIndex p b = some (b.setWidth 4) := by
  rcases h with h | rfl
  · exact keyIndex_of_le p h
  · exact keyIndex_lowNibble b

theorem keyPressed_setWidth (s : State) (b : Byte) :
    s.keyPressed (b.setWidth 4) = s.key.getLsbD (b.toNat % 16) := by
  rw [State.keyPressed, BitVec.toNat_setWidth]

/-- Settles O33: the key index names key V[X] mod 16, and the skip is on its state. -/
theorem keySkips : Obligations.KeySkips := by
  intro s x hx
  have hkey := keyIndex_eq_some hx
  refine ⟨?_, ?_⟩
  · have h : exec (.skpVx x) s = .next (s.skipIf (s.keyPressed ((s.reg x).setWidth 4) == true)) :=
      congrArg _ (State.skipIfKey_of_key s (.skpVx x) x true hkey)
    simpa only [keyPressed_setWidth, beq_true] using commits_skipIf h
  · have h : exec (.sknpVx x) s = .next (s.skipIf (s.keyPressed ((s.reg x).setWidth 4) == false)) :=
      congrArg _ (State.skipIfKey_of_key s (.sknpVx x) x false hkey)
    simpa only [keyPressed_setWidth, beq_false, Bool.not_eq_true', ← Bool.not_eq_true, ite_not] using commits_skipIf h

/-- Settles O34: above 15 the policy fault gives no key index, so both are the error. -/
theorem keyIndexAboveFifteenHalts : Obligations.KeyIndexAboveFifteenHalts := by
  intro s x hx hp
  have hkey : keyIndex s.params.keyIndexPolicy (s.reg x) = none := by rw [hp, keyIndex_fault hx]
  refine ⟨⟨s.raiseBy (.skpVx x) .keyIndexOutOfRange none, ?_, haltedWith_raiseBy s _ _ _⟩,
    ⟨s.raiseBy (.sknpVx x) .keyIndexOutOfRange none, ?_, haltedWith_raiseBy s _ _ _⟩⟩
  · exact congrArg _ (State.skipIfKey_of_fault s (.skpVx x) x true hkey)
  · exact congrArg _ (State.skipIfKey_of_fault s (.sknpVx x) x false hkey)

/-! What each instruction writes: register loads, the ALU and the random byte (43_alu). -/

section
variable {i : Instr} {s : State} {x : Nibble} {b f : Byte}

/-- What an instruction answers that writes V[X] on the advanced state. -/
theorem commits_setReg (h : exec i s = .next (s.advance.setReg x b)) :
    ∃ t, exec i s = .next t ∧ t.reg x = b ∧ t.pc = s.pc + 2 ∧ t.events = {} ∧
      changesOnly [.reg x, .pc, .events] s t :=
  ⟨_, h, State.reg_setReg_same _ x b, rfl, rfl, changesOnly_advance_setReg s x b⟩

/-- What an instruction answers that writes V[X] and then the flag on the advanced state (43_alu R221, D6). -/
theorem commits_setRegFlag (h : exec i s = .next (s.advance.setRegFlag x b f)) :
    ∃ t, exec i s = .next t ∧ (x ≠ 0xF → t.reg x = b) ∧ t.reg 0xF = f ∧ t.pc = s.pc + 2 ∧ t.events = {} ∧
      changesOnly [.reg x, .reg 0xF, .pc, .events] s t :=
  ⟨_, h, State.reg_setRegFlag_result _ b f, State.reg_setRegFlag_flag _ x b f, rfl, rfl,
    changesOnly_of_advance (changesOnly_setRegFlag _ x b f)⟩

end

/-- Settles O36: each of the five writes V[X] alone, with its integer or bitwise result. -/
theorem movesAndLogicWriteVxOnly : Obligations.MovesAndLogicWriteVxOnly := by
  intro s x y nn
  refine ⟨?_, commits_setReg rfl, ?_, ?_, ?_⟩
  · obtain ⟨t, ht, hx, hrest⟩ := commits_setReg (rfl : exec (.addVxByte x nn) s = _)
    exact ⟨t, ht, by rw [hx, BitVec.toNat_add], hrest⟩
  · obtain ⟨t, ht, hx, hrest⟩ := commits_setReg (rfl : exec (.orVxVy x y) s = _)
    exact ⟨t, ht, fun b => by rw [hx, BitVec.getLsbD_or], hrest⟩
  · obtain ⟨t, ht, hx, hrest⟩ := commits_setReg (rfl : exec (.andVxVy x y) s = _)
    exact ⟨t, ht, fun b => by rw [hx, BitVec.getLsbD_and], hrest⟩
  · obtain ⟨t, ht, hx, hrest⟩ := commits_setReg (rfl : exec (.xorVxVy x y) s = _)
    exact ⟨t, ht, fun b => by rw [hx, BitVec.getLsbD_xor], hrest⟩

theorem flagByte_decide (p : Prop) [Decidable p] : flagByte (decide p) = if p then 1 else 0 := by
  simp only [flagByte, decide_eq_true_eq]

/-- Settles O37: the carry is taken of the old values and written after the sum. -/
theorem addSetsCarry : Obligations.AddSetsCarry := by
  intro s x y
  obtain ⟨t, ht, hx, hf, hrest⟩ := commits_setRegFlag (rfl : exec (.addVxVy x y) s = _)
  refine ⟨decodeOfEncode (.addVxVy x y) rfl, t, ht, fun hne => ?_, ?_, hrest⟩
  · rw [hx hne, BitVec.toNat_add]
  · rw [hf, carryFlag, flagByte_decide]

theorem toNat_sub_int (a b : Byte) : ((a - b).toNat : Int) = ((a.toNat : Int) - b.toNat) % 256 := by
  have := a.isLt
  have := b.isLt
  rw [BitVec.toNat_sub]
  omega

theorem subFlag_borrow (a b : Byte) : subFlag .borrow a b = if a.toNat < b.toNat then 1 else 0 :=
  flagByte_decide _

theorem subFlag_notBorrow (a b : Byte) : subFlag .notBorrow a b = if a.toNat < b.toNat then 0 else 1 := by
  rw [subFlag, flagByte_decide]
  simp only [← Nat.not_lt, ite_not]

/-- What an instruction answers that subtracts b from a into V[X] (43_alu R229, R231, R235). -/
theorem commits_sub {i : Instr} {s : State} {x : Nibble} {a b : Byte}
    (h : exec i s = .next (s.advance.setRegFlag x (a - b) (subFlag s.params.subVfPolarity a b))) :
    ∃ t, exec i s = .next t ∧ (x ≠ 0xF → ((t.reg x).toNat : Int) = ((a.toNat : Int) - b.toNat) % 256) ∧
      (s.params.subVfPolarity = .borrow → t.reg 0xF = if a.toNat < b.toNat then 1 else 0) ∧
      (s.params.subVfPolarity = .notBorrow → t.reg 0xF = if a.toNat < b.toNat then 0 else 1) ∧
      t.pc = s.pc + 2 ∧ t.events = {} ∧ changesOnly [.reg x, .reg 0xF, .pc, .events] s t := by
  obtain ⟨t, ht, hx, hf, hrest⟩ := commits_setRegFlag h
  refine ⟨t, ht, fun hne => ?_, fun hp => ?_, fun hp => ?_, hrest⟩
  · rw [hx hne, toNat_sub_int]
  · rw [hf, hp, subFlag_borrow]
  · rw [hf, hp, subFlag_notBorrow]

/-- Settles O38: SUB and SUBN are one subtraction with the operands in either order. -/
theorem subtractionsSetBorrow : Obligations.SubtractionsSetBorrow := by
  intro s x y
  exact ⟨commits_sub rfl, commits_sub rfl⟩

theorem shiftOperand_eq {s : State} {x y : Nibble} {src : Byte}
    (h : s.params.shiftSrc = .vx ∧ src = s.reg x ∨ s.params.shiftSrc = .vy ∧ src = s.reg y) :
    s.shiftOperand x y = src := by
  rcases h with ⟨hp, rfl⟩ | ⟨hp, rfl⟩ <;> rw [State.shiftOperand, hp]

/-- Settles O39: the result and the bit shifted out are quotient and remainder of the operand. -/
theorem shiftsSetBitShiftedOut : Obligations.ShiftsSetBitShiftedOut := by
  intro s x y src hsrc
  have hop := shiftOperand_eq hsrc
  refine ⟨?_, ?_⟩
  · obtain ⟨t, ht, hx, hf, hrest⟩ := commits_setRegFlag (rfl : exec (.shrVxVy x y) s = _)
    rw [hop] at hx hf
    refine ⟨t, ht, fun hne => ?_, ?_, hrest⟩
    · rw [hx hne, BitVec.toNat_ushiftRight, Nat.shiftRight_one]
    · rw [hf, shrFlag, BitVec.toNat_and]
      exact Nat.and_one_is_mod _
  · obtain ⟨t, ht, hx, hf, hrest⟩ := commits_setRegFlag (rfl : exec (.shlVxVy x y) s = _)
    rw [hop] at hx hf
    refine ⟨t, ht, fun hne => ?_, ?_, hrest⟩
    · rw [hx hne, BitVec.toNat_shiftLeft, Nat.shiftLeft_eq]
    · rw [hf, shlFlag, BitVec.toNat_ushiftRight, Nat.shiftRight_eq_div_pow]

/-- Settles O40: the draw is taken before the byte is written, whatever the mask. -/
theorem rndDrawsOneByte : Obligations.RndDrawsOneByte := by
  intro s x nn
  have hreg : (s.advance.takeDraw.setReg x (s.randByte &&& nn)).reg x = s.randByte &&& nn := State.reg_setReg_same ..
  have hframe := changesOnly_of_advance
    (changesOnly_trans (changesOnly_takeDraw s.advance) (changesOnly_setReg _ x (s.randByte &&& nn)))
  refine ⟨_, rfl, fun b rest hfeed => ⟨?_, congrArg List.tail hfeed⟩, fun hfeed => ⟨?_, congrArg List.tail hfeed⟩,
    rfl, rfl, rfl, changesOnly_of_subset hframe (by simp)⟩
  · rw [hreg, State.randByte, hfeed]
  · rw [hreg, State.randByte, hfeed]

end Sys2Proof.Machine

namespace Sys2Proof.Machine

/-! What each instruction writes: I and memory transfers (44_index_memory), the display (45_display), the sound timer
and the key wait (46_timers_keys). -/

/-! ### Index register -/

/-- What an instruction answers that writes I on the advanced state. -/
theorem commits_setI {i : Instr} {s : State} {w : Word} (h : exec i s = .next (s.advance.setI w)) :
    ∃ t, exec i s = .next t ∧ t.i = w ∧ t.pc = s.pc + 2 ∧ t.events = {} ∧ changesOnly [.index, .pc, .events] s t :=
  ⟨_, h, rfl, rfl, rfl, changesOnly_advance_setI s w⟩

theorem addI_toNat (w : Word) (b : Byte) : (w + b.setWidth 16).toNat = (w.toNat + b.toNat) % 65536 := by
  have := b.isLt
  rw [BitVec.toNat_add, BitVec.toNat_setWidth]
  omega

/-- FONT_BASE and five times any byte stay below 65536 (44_index_memory R263). -/
theorem fontAddr_toNat (p : Params) (b : Byte) :
    (fontAddr p b).toNat = p.fontBase.val + 5 * fontDigit p.fx29Index b := by
  have hdigit : fontDigit p.fx29Index b ≤ b.toNat := by
    cases p.fx29Index with
    | full => exact Nat.le_refl _
    | lowNibble => exact Nat.mod_le _ _
  have := p.fontBase.isLt
  have := b.isLt
  rw [fontAddr, BitVec.toNat_ofNat]
  omega

/-- Settles O42: both write I alone, the sum mod 65536 and the glyph's address. -/
theorem addIAndLdFWriteI : Obligations.AddIAndLdFWriteI := by
  intro s x
  constructor
  · obtain ⟨t, ht, hi, hrest⟩ := commits_setI (rfl : exec (.addIVx x) s = _)
    exact ⟨t, ht, by rw [hi, addI_toNat], hrest⟩
  · obtain ⟨t, ht, hi, hrest⟩ := commits_setI (rfl : exec (.ldFVx x) s = _)
    refine ⟨t, ht, fun hp => ?_, fun hp => ?_, hrest⟩
    all_goals rw [hi, fontAddr_toNat, hp]; rfl

/-! ### Memory transfers -/

/-- Where a transfer's range lies in memory its check passes, and else it reports max(I, 0x1000) (R268). -/
theorem lowestOob_of_le {b n : Nat} (h : b + n ≤ memSize) : lowestOob b n = none := lowestOob_eq_none.2 (.inr h)

theorem lowestOob_of_gt {b n : Nat} (hn : n ≠ 0) (h : memSize < b + n) : lowestOob b n = some (max b memSize) :=
  lowestOob_eq_some.2 ⟨hn, h, rfl⟩

/-- A stored byte reads back (20_memory R77). -/
theorem read_writeBytes_stored (m : Memory) (a : Nat) {bs : List Byte} {k : Nat} (h : k < bs.length) :
    Memory.read (Memory.writeBytes m a bs) (a + k) = bs.getD k 0 := by
  rw [Memory.read_writeBytes, if_pos ⟨Nat.le_add_right a k, Nat.add_lt_add_left h a⟩, Nat.add_sub_cancel_left]

/-- What an instruction answers that stores bytes at I on the advanced state. -/
theorem commits_storeBytes {i : Instr} {s : State} {bs : List Byte}
    (h : exec i s = .next (s.advance.storeBytes s.effAddr bs)) :
    ∃ t, exec i s = .next t ∧ (∀ k, k < bs.length → Memory.read t.mem (s.i.toNat + k) = bs.getD k 0) ∧
      t.pc = s.pc + 2 ∧ t.events = {} ∧ changesOnly (bytesFrom s.i.toNat bs.length ++ [.pc, .events]) s t :=
  ⟨_, h, fun _ hk => read_writeBytes_stored _ _ hk, rfl, rfl,
    changesOnly_of_advance (changesOnly_storeBytes s.advance s.effAddr bs)⟩

/-- Settles O43: the three digits are stored where the check passes, and else the check's address is raised. -/
theorem bcdStoresThreeDigits : Obligations.BcdStoresThreeDigits := by
  intro s x
  have hsize : memSize = 4096 := rfl
  have hlt := (s.reg x).isLt
  refine ⟨decodeOfEncode (.ldBVx x) rfl, fun h => ?_, fun h => ?_⟩
  · have hok : lowestOob s.effAddr 3 = none := lowestOob_of_le (show s.i.toNat + 3 ≤ memSize by omega)
    obtain ⟨t, ht, hread, hrest⟩ := commits_storeBytes (exec_ldBVx_store s x hok)
    refine ⟨t, ht, ?_, ?_, ?_, hrest⟩
    · exact (congrArg BitVec.toNat (hread 0 (show 0 < 3 by decide))).trans (Nat.mod_eq_of_lt (by omega))
    · exact (congrArg BitVec.toNat (hread 1 (show 1 < 3 by decide))).trans (Nat.mod_eq_of_lt (by omega))
    · exact (congrArg BitVec.toNat (hread 2 (show 2 < 3 by decide))).trans (Nat.mod_eq_of_lt (by omega))
  · have hoob : lowestOob s.effAddr 3 = some (max s.i.toNat 0x1000) :=
      lowestOob_of_gt (by decide) (show memSize < s.i.toNat + 3 by omega)
    exact ⟨_, exec_ldBVx_oob s x hoob, haltedWith_raiseBy s _ _ _⟩

section
variable {s : State} {x : Nibble}

/-- A transfer of V0 to V[x] passes its check where its last address is in memory (20_memory R75). -/
theorem lowestOob_transfer_ok (h : s.i.toNat + x.toNat ≤ 0xFFF) : lowestOob s.effAddr (x.toNat + 1) = none :=
  lowestOob_of_le (Nat.succ_le_succ h)

theorem lowestOob_transfer_oob (h : 0xFFF < s.i.toNat + x.toNat) :
    lowestOob s.effAddr (x.toNat + 1) = some (max s.i.toNat 0x1000) :=
  lowestOob_of_gt (Nat.succ_ne_zero _) (Nat.succ_lt_succ h)

/-- What FX55 answers where its range lies in memory (44_index_memory R265). -/
theorem commits_ldMemVx (h : s.i.toNat + x.toNat ≤ 0xFFF) :
    ∃ t, exec (.ldMemVx x) s = .next t ∧
      (∀ r : Nibble, r.toNat ≤ x.toNat → Memory.read t.mem (s.i.toNat + r.toNat) = s.reg r) ∧
      t.pc = s.pc + 2 ∧ t.events = {} ∧ changesOnly (bytesFrom s.i.toNat (x.toNat + 1) ++ [.pc, .events]) s t := by
  obtain ⟨t, ht, hread, hrest⟩ := commits_storeBytes (exec_ldMemVx_store s x (lowestOob_transfer_ok h))
  rw [State.regsUpTo_length] at hread hrest
  refine ⟨t, ht, fun r hr => ?_, hrest⟩
  rw [hread r.toNat (Nat.lt_succ_of_le hr), State.regsUpTo_getD s x r hr]

/-- What FX65 answers where its range lies in memory (44_index_memory R266). -/
theorem commits_ldVxMem (h : s.i.toNat + x.toNat ≤ 0xFFF) :
    ∃ t, exec (.ldVxMem x) s = .next t ∧
      (∀ r : Nibble, r.toNat ≤ x.toNat → t.reg r = Memory.read s.mem (s.i.toNat + r.toNat)) ∧
      t.pc = s.pc + 2 ∧ t.events = {} ∧ changesOnly (regsThrough x ++ [.pc, .events]) s t := by
  refine ⟨_, exec_ldVxMem_load s x (lowestOob_transfer_ok h), fun r hr => ?_, rfl, rfl,
    changesOnly_of_advance (changesOnly_loadRegs s.advance x s.effAddr)⟩
  exact (State.reg_loadRegs s.advance x r s.effAddr).trans (if_pos hr)

end

/-- Settles O44: the stored bytes are V0 to V[X]. -/
theorem storeRegistersWritesBytes : Obligations.StoreRegistersWritesBytes := fun _ _ h => commits_ldMemVx h

/-- Settles O45: the loaded registers are the bytes at I to I + X. -/
theorem loadRegistersReadsBytes : Obligations.LoadRegistersReadsBytes := fun _ _ h => commits_ldVxMem h

/-- Settles O46: both make the same range check, and raise its address. -/
theorem transferOutOfRangeHalts : Obligations.TransferOutOfRangeHalts := by
  intro s x h
  have hoob := lowestOob_transfer_oob h
  exact ⟨⟨_, exec_ldMemVx_oob s x hoob, haltedWith_raiseBy s _ _ _⟩,
    ⟨_, exec_ldVxMem_oob s x hoob, haltedWith_raiseBy s _ _ _⟩⟩

/-- Settles O47: FX65 reads at I + r what FX55 stored there. -/
theorem loadGivesBackStoredRegisters : Obligations.LoadGivesBackStoredRegisters := by
  intro s t u x h ht hmem hi
  obtain ⟨t', ht', hstored, -⟩ := commits_ldMemVx h
  cases ht.symm.trans ht'
  obtain ⟨w, hw, hloaded, -⟩ := commits_ldVxMem (s := u) (x := x) (by rw [hi]; exact h)
  refine ⟨w, hw, fun r hr => ?_⟩
  rw [hloaded r hr, hmem, hi, hstored r hr]

/-- Settles O48: the fetch at I + r reads the stored V[r] and V[r+1]. -/
theorem storeSeenByNextFetch : Obligations.StoreSeenByNextFetch := by
  intro s t x r r' h ht hpc hsucc hr'
  have hsize : memSize = 4096 := rfl
  obtain ⟨t', ht', hstored, -⟩ := commits_ldMemVx h
  cases ht.symm.trans ht'
  have hfirst : Memory.read t.mem t.pc.toNat = s.reg r := by rw [hpc, hstored r (by omega)]
  have hsecond : Memory.read t.mem (t.pc.toNat + 1) = s.reg r' := by
    rw [hpc, Nat.add_assoc, ← hsucc, hstored r' hr']
  rw [State.fetch_of_le (by omega), hfirst, hsecond]
  rfl

/-! ### Display -/

/-- Settles O49: the clear display is written, and its event. -/
theorem clsClearsDisplay : Obligations.ClsClearsDisplay := by
  intro s
  refine ⟨_, rfl, Display.pixel_clear, rfl, rfl, ?_⟩
  have hframe := changesOnly_trans (changesOnly_setDisplay s.advance Display.clear)
    (changesOnly_emit _ { displayUpdated := true })
  exact changesOnly_of_subset (changesOnly_of_advance hframe) (by simp)

theorem flagByte_eq_one (c : Bool) : flagByte c = 1 ↔ c = true := by cases c <;> decide

section
variable (s : State) (x y n : Nibble)

/-- The sprite covers the pixels that the blit flips (45_display R292). -/
theorem spriteCovers_iff (px py : Nat) : spriteCovers s x y n px py ↔ (px, py) ∈ s.drawPixels x y n := by
  rw [State.drawPixels, mem_spritePixels, Memory.readBytes_length, spriteCovers]
  refine exists_congr fun r => exists_congr fun c => and_congr_right fun hr => ?_
  rw [Memory.readBytes_getD _ _ _ _ hr, Prod.mk.injEq]
  rfl

/-- The drawn display (45_display R292): a covered pixel is flipped, every other is as before. -/
theorem pixel_drawn (px py : Nat) : Display.pixel (s.drawn x y n).1 px py =
    (Display.pixel s.display px py ^^ decide ((px, py) ∈ s.drawPixels x y n)) :=
  Display.blit_pixel _ _ _ (s.nodup_drawPixels x y n) (spritePixels_bounds _ _ _) px py

/-- The collision (45_display R294): a covered pixel was on. -/
theorem collision_drawn : (s.drawn x y n).2 = true ↔
    ∃ px py, (px, py) ∈ s.drawPixels x y n ∧ Display.pixel s.display px py = true := by
  rw [State.drawn, Display.blit_collision _ _ _ (s.nodup_drawPixels x y n) (spritePixels_bounds _ _ _), Bool.false_or,
    List.any_eq_true, Prod.exists]

/-- What DRW answers where its sprite lies in memory (45_display R292 to R294). -/
theorem commits_drwVxVyN (h : lowestOob s.effAddr n.toNat = none) :
    ∃ t, exec (.drwVxVyN x y n) s = .next t ∧ t.display = (s.drawn x y n).1 ∧ t.mem = s.mem ∧
      t.reg 0xF = flagByte (s.drawn x y n).2 ∧ t.events = { displayUpdated := true } ∧ t.pc = s.pc + 2 ∧
      changesOnly [.display, .reg 0xF, .pc, .events] s t := by
  refine ⟨_, exec_drwVxVyN_draw s x y n h, rfl, rfl, State.reg_setReg_same _ flagReg _, rfl, rfl, ?_⟩
  have hframe := changesOnly_trans (changesOnly_trans (changesOnly_setDisplay s.advance (s.drawn x y n).1)
    (changesOnly_setReg _ flagReg (flagByte (s.drawn x y n).2))) (changesOnly_emit _ { displayUpdated := true })
  exact changesOnly_of_subset (changesOnly_of_advance hframe) (by simp [flagReg])

end

/-- A sprite of no rows, or one that ends inside memory, passes the range check (45_display R295). -/
theorem lowestOob_sprite_ok {s : State} {n : Nibble} (h : n = 0 ∨ s.i.toNat + n.toNat - 1 ≤ 0xFFF) :
    lowestOob s.effAddr n.toNat = none := by
  have hsize : memSize = 4096 := rfl
  refine lowestOob_eq_none.2 ?_
  rcases h with rfl | h
  · exact .inl rfl
  · exact .inr (show s.i.toNat + n.toNat ≤ memSize by omega)

/-- Settles O50: the blit's pixels are the covered ones, its flag their collision; else the check's address is
raised. -/
theorem drwXorsSprite : Obligations.DrwXorsSprite := by
  intro s x y n
  refine ⟨decodeOfEncode (.drwVxVyN x y n) rfl, fun h => ?_, fun hn h => ?_⟩
  · obtain ⟨t, ht, hdisp, -, hf, hrest⟩ := commits_drwVxVyN s x y n (lowestOob_sprite_ok h)
    refine ⟨t, ht, fun px py _ _ => ?_, ?_, ?_, hrest⟩
    · rw [hdisp, pixel_drawn, spriteCovers_iff]
      by_cases hm : (px, py) ∈ s.drawPixels x y n <;> simp [hm]
    · rw [hf]
      cases (s.drawn x y n).2 <;> decide
    · simp only [hf, flagByte_eq_one, collision_drawn, spriteCovers_iff]
  · have hsize : memSize = 4096 := rfl
    have hn : n.toNat ≠ 0 := fun e => hn (BitVec.eq_of_toNat_eq e)
    have hoob : lowestOob s.effAddr n.toNat = some (max s.i.toNat 0x1000) :=
      lowestOob_of_gt hn (show memSize < s.i.toNat + n.toNat by omega)
    exact ⟨_, exec_drwVxVyN_oob s x y n hoob, haltedWith_raiseBy s _ _ _⟩

/-- DRW leaves what its own pixels depend on, where its coordinates are not in VF (45_display R296). -/
theorem drawPixels_eq_of_frame {s t : State} {x y : Nibble} (n : Nibble) (hx : x ≠ 0xF) (hy : y ≠ 0xF)
    (hmem : t.mem = s.mem) (hc : changesOnly [.display, .reg 0xF, .pc, .events] s t) :
    t.drawPixels x y n = s.drawPixels x y n := by
  have hi : t.i = s.i := hc .index (by simp)
  have hregx : t.reg x = s.reg x := hc (.reg x) (by simpa using hx)
  have hregy : t.reg y = s.reg y := hc (.reg y) (by simpa using hy)
  rw [State.drawPixels, State.drawPixels, State.effAddr, State.effAddr, hmem, hi, hregx, hregy]

/-- Settles O51: the second draw flips the same pixels back, and collides where the first turned one on. -/
theorem drawingTwiceRestoresDisplay : Obligations.DrawingTwiceRestoresDisplay := by
  intro s t x y n hx hy h ht
  obtain ⟨t', ht', hdisp, hmem, -, -, -, hc⟩ := commits_drwVxVyN s x y n (lowestOob_sprite_ok h)
  cases ht.symm.trans ht'
  have hi : t.i = s.i := hc .index (by simp)
  have hpixels : t.drawPixels x y n = s.drawPixels x y n := drawPixels_eq_of_frame n hx hy hmem hc
  have hpixel : ∀ px py, Display.pixel t.display px py =
      (Display.pixel s.display px py ^^ decide ((px, py) ∈ s.drawPixels x y n)) := by
    intro px py
    rw [hdisp, pixel_drawn]
  obtain ⟨u, hu, hudisp, -, huf, -⟩ := commits_drwVxVyN t x y n (lowestOob_sprite_ok (by rw [hi]; exact h))
  refine ⟨u, hu, Display.ext_pixel fun px py _ _ => ?_, ?_⟩
  · rw [hudisp, pixel_drawn, hpixels, hpixel, Bool.xor_assoc, Bool.xor_self, Bool.xor_false]
  · rw [huf, flagByte_eq_one, collision_drawn, hpixels]
    refine exists_congr fun px => exists_congr fun py => ?_
    rw [hpixel]
    by_cases hm : (px, py) ∈ s.drawPixels x y n <;> simp [hm]

/-! ### Sound timer and key wait -/

theorem toneEvent_eq (b : Byte) : toneEvent b = { toneOn := b != 0, toneOff := !(b != 0) } := by
  rw [toneEvent]
  split <;> simp_all

/-- Settles O53: the event is by the byte written. -/
theorem soundTimerWriteSaysTone : Obligations.SoundTimerWriteSaysTone := by
  intro s x
  refine ⟨_, rfl, rfl, rfl, toneEvent_eq (s.reg x), ?_⟩
  have hframe := changesOnly_trans (changesOnly_setSt s.advance (s.reg x)) (changesOnly_emit _ (toneEvent (s.reg x)))
  exact changesOnly_of_subset (changesOnly_of_advance hframe) (by simp)

/-- Settles O55: outside the wait FX0A's one end is the entry into it. -/
theorem fx0aEntersKeyWait : Obligations.Fx0aEntersKeyWait := by
  intro s x hr
  exact ⟨_, exec_ldVxK_enter s x (by simp [hr]), rfl, rfl, rfl, changesOnly_enterKeyWait s⟩

theorem getLsbD_newlyPressed (s : State) {j : Nat} (hj : j < 16) :
    s.newlyPressed.getLsbD j = (s.key.getLsbD j && !s.kwSnap.getLsbD j) := by
  rw [State.newlyPressed, BitVec.getLsbD_and, BitVec.getLsbD_not, decide_eq_true hj, Bool.true_and]

/-- Settles O56: the key is the lowest of those newly pressed, so the poll step writes it. -/
theorem fx0aCompletesOnNewPress : Obligations.Fx0aCompletesOnNewPress := by
  intro s x k hr hkey hsnap hlower
  have hk : k.toNat < 16 := k.isLt
  have hlow : lowestKey s.newlyPressed = some k.toNat := by
    refine lowestKey_eq_some.2 ⟨hk, ?_, fun j hj => ?_⟩
    · rw [getLsbD_newlyPressed s hk, hkey, hsnap]; rfl
    · rw [getLsbD_newlyPressed s (by omega)]
      have := hlower j hj
      cases hkj : s.key.getLsbD j <;> simp_all
  have hframe := changesOnly_of_advance (changesOnly_pollStep_pressed s x hlow)
  rw [State.pollStep_pressed s x hlow] at hframe
  refine ⟨_, (exec_ldVxK_poll s x hr).trans (congrArg _ (State.pollStep_pressed s x hlow)), ?_, rfl, rfl, rfl,
    changesOnly_of_subset hframe (by simp)⟩
  have hreg : (s.advance.setReg x (BitVec.ofNat 8 k.toNat)).reg x = BitVec.ofNat 8 k.toNat := State.reg_setReg_same ..
  exact (congrArg BitVec.toNat hreg).trans (Nat.mod_eq_of_lt (by omega))

/-- Settles O57: no key is newly pressed, so the poll step samples again. -/
theorem fx0aWaitsWithoutNewPress : Obligations.Fx0aWaitsWithoutNewPress := by
  intro s x hr hheld
  have hnone : lowestKey s.newlyPressed = none := by
    refine lowestKey_eq_none.2 (BitVec.eq_of_getLsbD_eq fun j hj => ?_)
    rw [getLsbD_newlyPressed s hj]
    have := hheld j
    cases hkj : s.key.getLsbD j <;> simp_all
  have hframe := changesOnly_pollStep_unpressed s x hnone
  rw [State.pollStep_unpressed s x hnone] at hframe
  exact ⟨_, (exec_ldVxK_poll s x hr).trans (congrArg _ (State.pollStep_unpressed s x hnone)), rfl, rfl, hframe⟩

end Sys2Proof.Machine
